-- ==== Sys2Proof/Word.lean ====
section
/-!
DEFINITION. The two machine types of the xchacha20-demo CORE: the 32-bit word every register of the window holds
(spec/00_scope.md R9, R10) and the byte. Every quantity is unsigned.
-/

namespace Sys2Proof

/-- A 32-bit register or state word (R9). -/
abbrev Word := BitVec 32

/-- A byte of a byte sequence (R13). -/
abbrev Byte := BitVec 8

end Sys2Proof
end

