-- ==== Sys2Proof/Syntax.lean ====
section
/-!
DEFINITION. The command set CORE-CMD version 1 (spec/30_encoding.md R97): one constructor per row of
spec/opcode_table.json. Indices of state words are Fin 16; `len`, `klen` and `nlen` count bytes (R96) and are Nat,
their range being WellFormed's business.
-/

namespace Sys2Proof

/-- The commands of R97, in the table's order. -/
inductive Instr where
  /-- NOP, R129. -/
  | nop
  /-- QR, format Q: the four word indices of R93. -/
  | qr (a b c d : Fin 16)
  /-- COLROUND, R122. -/
  | colround
  /-- DIAGROUND, R123. -/
  | diaground
  /-- DOUBLEROUND, R124. -/
  | doubleround
  /-- PERM, R125. -/
  | perm
  /-- PERMFF, R126. -/
  | permff
  /-- HCHACHA, R142. -/
  | hchacha
  /-- C_INIT, format I: supplied key and nonce lengths and the raw flag (R95). -/
  | cInit (klen nlen : Nat) (raw : Bool)
  /-- C_START, R157. -/
  | cStart
  /-- C_XOR, format L: byte count and zero-input flag (R94). -/
  | cXor (len : Nat) (z : Bool)
  /-- FADD, R181. -/
  | fadd
  /-- FMUL, R182. -/
  | fmul
  /-- P_INIT, format I with `nlen` = 0 and `raw` = 0 (R95, R200). -/
  | pInit (klen : Nat)
  /-- P_START, R201. -/
  | pStart
  /-- P_BLOCK, format L with `z` = 0 (R94, R203). -/
  | pBlock (len : Nat)
  /-- P_FINAL, R205. -/
  | pFinal
  /-- TAGCMP, format L with `z` = 0 (R94, R207). -/
  | tagcmp (len : Nat)
  deriving DecidableEq, Repr

end Sys2Proof
end

