-- ==== Sys2Proof/WellFormed.lean ====
section
/-!
DEFINITION. Which commands have an encoding: every operand fits its field (spec/30_encoding.md R94, R95, R101). A
value that fits but is outside the range a command accepts is well formed and completes with an error (R99).
-/

namespace Sys2Proof

/-- `len` fits the 7-bit field of format L (R94: 0..127). -/
def lenFits (len : Nat) : Bool := decide (len ≤ 127)

/-- `klen` or `nlen` fits the 8-bit field of format I (R95: 0..255). -/
def sizeFits (n : Nat) : Bool := decide (n ≤ 255)

/-- The operands the assembler of R101 does not refuse: each fits its field. -/
def Instr.wellFormed : Instr → Bool
  | .nop => true
  | .qr _ _ _ _ => true
  | .colround => true
  | .diaground => true
  | .doubleround => true
  | .perm => true
  | .permff => true
  | .hchacha => true
  | .cInit klen nlen _ => sizeFits klen && sizeFits nlen
  | .cStart => true
  | .cXor len _ => lenFits len
  | .fadd => true
  | .fmul => true
  | .pInit klen => sizeFits klen
  | .pStart => true
  | .pBlock len => lenFits len
  | .pFinal => true
  | .tagcmp len => lenFits len

end Sys2Proof
end

