-- ==== Sys2Proof/Decode.lean ====
section
/-!
DEFINITION. The decoder of a command word, total on every 32-bit word (spec/30_encoding.md R91 to R100), and the
encoder `enc(X)` of R103, both written from the patterns of R97.
-/

namespace Sys2Proof

/-- Why a word is illegal (R98): its opcode is not in R97's table, or a bit its format marks reserved or "must be 0"
is 1. Both complete with `E_OPC`. -/
inductive Illegal where
  /-- Bits [7:0] are no opcode of R97. -/
  | unassignedOpcode
  /-- The opcode is assigned and a must-be-0 bit is set. -/
  | mustBeZero
  deriving DecidableEq, Repr

/-- The unsigned field of `width` bits that starts at bit `lo` (R10, R96). -/
def fieldNat (w : Word) (lo width : Nat) : Nat := (w.extractLsb' lo width).toNat

/-- A 4-bit state word index (R93). -/
def fieldIndex (w : Word) (lo : Nat) : Fin 16 := (w.extractLsb' lo 4).toFin

/-- Bit `i` of a word (R10). -/
def fieldBit (w : Word) (i : Nat) : Bool := w.getLsbD i

/-- A row of R97: the mask and the match value of its pattern, and the command its fields give. -/
structure Row where
  mask : Word
  pattern : Word
  build : Word → Instr

/-- A row with no operand: format N (R92). -/
def rowN (opc : Word) (i : Instr) : Row := ⟨0xFFFFFFFF#32, opc, fun _ => i⟩

/-- The opcode map of R97, row by row in its order. -/
def opcodeMap : List Row :=
  [ rowN 0x00000000#32 .nop,
    ⟨0xFF0000FF#32, 0x00000001#32,
      fun w => .qr (fieldIndex w 8) (fieldIndex w 12) (fieldIndex w 16) (fieldIndex w 20)⟩,
    rowN 0x00000002#32 .colround,
    rowN 0x00000003#32 .diaground,
    rowN 0x00000004#32 .doubleround,
    rowN 0x00000005#32 .perm,
    rowN 0x00000006#32 .permff,
    rowN 0x00000010#32 .hchacha,
    ⟨0xFE0000FF#32, 0x00000020#32, fun w => .cInit (fieldNat w 8 8) (fieldNat w 16 8) (fieldBit w 24)⟩,
    rowN 0x00000021#32 .cStart,
    ⟨0xFFFF00FF#32, 0x00000022#32, fun w => .cXor (fieldNat w 8 7) (fieldBit w 15)⟩,
    rowN 0x00000030#32 .fadd,
    rowN 0x00000031#32 .fmul,
    ⟨0xFFFF00FF#32, 0x00000040#32, fun w => .pInit (fieldNat w 8 8)⟩,
    rowN 0x00000041#32 .pStart,
    ⟨0xFFFF80FF#32, 0x00000042#32, fun w => .pBlock (fieldNat w 8 7)⟩,
    rowN 0x00000043#32 .pFinal,
    ⟨0xFFFF80FF#32, 0x00000044#32, fun w => .tagcmp (fieldNat w 8 7)⟩ ]

/-- A word selects a row when (w & mask) = match (R97). -/
def Row.selects (r : Row) (w : Word) : Bool := w &&& r.mask == r.pattern

/-- The first row of a table that a word selects (R100's loop). -/
def findRow (w : Word) : List Row → Option Row
  | [] => none
  | r :: rest => if r.selects w then some r else findRow w rest

/-- Bits [7:0] are the opcode of some row (R91). -/
def opcodeAssigned (w : Word) : Bool :=
  opcodeMap.any fun r => w.extractLsb' 0 8 == r.pattern.extractLsb' 0 8

/-- R100: the row that matches gives the command; a word no row matches is illegal, and R98 names the two causes. -/
def decode (w : Word) : Except Illegal Instr :=
  match findRow w opcodeMap with
  | some r => .ok (r.build w)
  | none => .error (if opcodeAssigned w then .mustBeZero else .unassignedOpcode)

/-- The decoder on a row of spec/opcode_table.json, whose bits are numbered from the least significant bit of the one
command word: bits above `nbits` are 0. -/
def decodeTableWord (nbits w : Nat) : Option Instr :=
  match decode (BitVec.ofNat 32 (w % 2 ^ nbits)) with
  | .ok i => some i
  | .error _ => none

/-- Format N: `opc` alone (R92). -/
def encN (opc : Byte) : Word := 0#24 ++ opc

/-- `enc(X)` of R103: the word of R97's pattern, most significant field first. A field holds its operand modulo the
field's size; on a well-formed command that is the operand. -/
def encode : Instr → Word
  | .nop => encN 0x00#8
  | .qr a b c d =>
    0#8 ++ BitVec.ofFin (w := 4) d ++ BitVec.ofFin (w := 4) c ++ BitVec.ofFin (w := 4) b ++
      BitVec.ofFin (w := 4) a ++ 0x01#8
  | .colround => encN 0x02#8
  | .diaground => encN 0x03#8
  | .doubleround => encN 0x04#8
  | .perm => encN 0x05#8
  | .permff => encN 0x06#8
  | .hchacha => encN 0x10#8
  | .cInit klen nlen raw =>
    0#7 ++ BitVec.ofBool raw ++ BitVec.ofNat 8 nlen ++ BitVec.ofNat 8 klen ++ 0x20#8
  | .cStart => encN 0x21#8
  | .cXor len z => 0#16 ++ BitVec.ofBool z ++ BitVec.ofNat 7 len ++ 0x22#8
  | .fadd => encN 0x30#8
  | .fmul => encN 0x31#8
  | .pInit klen => 0#16 ++ BitVec.ofNat 8 klen ++ 0x40#8
  | .pStart => encN 0x41#8
  | .pBlock len => 0#17 ++ BitVec.ofNat 7 len ++ 0x42#8
  | .pFinal => encN 0x43#8
  | .tagcmp len => 0#17 ++ BitVec.ofNat 7 len ++ 0x44#8

end Sys2Proof
end

