-- ==== Sys2Proof/Config.lean ====
section
/-!
DEFINITION. What is fixed when the block is built and what the spec leaves open: the authenticator variant
(spec/00_scope.md R6) as a type, and the two free values, constants with no body, so that no proof can see what they
are (spec/93_implementation_defined.md items 1, 6 and 8).
-/

namespace Sys2Proof

/-- `POLY_VARIANT` (R6): which clamp and block encoding the block was built with. The State holds the value (log 1). -/
inductive PolyVariant where
  /-- Encoding 0, the spec's default: Poly1305's clamp and padding. -/
  | rfc8439
  /-- Encoding 1: DOC0's literal clamp and padding. -/
  | docLiteral
  deriving DecidableEq, Repr

/-- The value of `CAP` for a variant (R28): bit 0 is the variant, bits [31:1] read 0. -/
def PolyVariant.cap : PolyVariant → Word
  | .rfc8439 => 0
  | .docLiteral => 1

namespace Config

/-- FREE VALUE (log 3): the `n`-th unspecified word a host read returns, while `BUSY` = 1 (R67) or while `rst_n` = 0
(R261). -/
opaque freeWord : Nat → Word

/-- FREE VALUE (log 4): how many turns the host takes between the acceptance of a command and its engine step, at
the `n`-th draw. Any finite number, so the engine step is weakly fair (R233) and both orders of an access and a
completion are admitted (R239). -/
opaque engineDelay : Nat → Nat

end Config

end Sys2Proof
end

