-- ==== Sys2Proof/Machine/State.lean ====
section
/-!
DEFINITION. The state of the xchacha20-demo CORE and of the host that drives it (spec/10_state.md R21 to R60,
spec/70_reset_and_hazards.md R261, R279), its reset value, and the ways a step can stop. Plain data only.
-/

namespace Sys2Proof.Machine

/-- Why the machine stops with a fault: never. Every host access completes (R74, R240), every word is accepted (R232),
every command completes (R233) and there are no traps (R242); so no constructor. -/
inductive Fault where
  deriving DecidableEq, Repr

/-- Why an instruction has no meaning. -/
inductive Refusal where
  /-- Raised only by an arm of exec whose instruction the model does not give a meaning; no arm does. Safe: the model
  stops where the hardware goes on. -/
  | notModelled (mnemonic : String)
  deriving DecidableEq, Repr

/-- `STATUS.ERRCODE` (R237): the codes 0 to 5; codes 6 to 15 are never produced (log 12). -/
inductive ErrCode where
  /-- 0: no error. -/
  | none
  /-- 1, `E_SIZE`: a supplied key or nonce length differs from the required size. -/
  | size
  /-- 2, `E_NOINIT`: the command needs an object that does not exist. -/
  | noInit
  /-- 3, `E_SEQ`: the object exists but the command is out of sequence. -/
  | seq
  /-- 4, `E_LEN`: the byte count is beyond the buffer. -/
  | len
  /-- 5, `E_OPC`: the command word is illegal. -/
  | opc
  deriving DecidableEq, Repr

/-- `STATUS.PPHASE` (R199): the authenticator's computation phase. -/
inductive PPhase where
  /-- 0: no computation running. -/
  | idle
  /-- 1: full blocks may follow. -/
  | active
  /-- 2: a block shorter than 16 bytes has been folded. -/
  | tailed
  /-- 3: the tag of this computation is in `TAG`. -/
  | done
  deriving DecidableEq, Repr

/-- One operation of the host's program (R22, R102, R104) or one event at the block's other input pin (R261). `idx` is
the port's word index `addr[9:2]` (R63). -/
inductive HostOp where
  /-- `rd`: a bus read. -/
  | rd (idx : BitVec 8)
  /-- `wr`: a bus write. -/
  | wr (idx : BitVec 8) (v : Word)
  /-- `wait` (R104): read `STATUS`, again and again while bit 0 of the value read is 1. -/
  | wait
  /-- The host waits until `irq` = 1 (R76, R241); no bus access (log 9). -/
  | waitIrq
  /-- The platform drives `rst_n` to a level (R261; log 6), the one it has or the other. -/
  | rstN (level : Bool)
  deriving DecidableEq, Repr

/-- Everything the spec gives the machine (INVENTORY.md, '## State'), then the host's and the model's own fields. -/
structure State where
  /-- `CAP.POLY_VARIANT` (R28): fixed when the block is built, changed by no step (log 1). -/
  variant : PolyVariant
  /-- `CTRL.IE` (R29). -/
  ie : Bool
  /-- `STATUS.BUSY` (R30). -/
  busy : Bool
  /-- `STATUS.DONE` (R30). -/
  done : Bool
  /-- `STATUS.ERR` (R30). -/
  err : Bool
  /-- `STATUS.EQ` (R30). -/
  eq : Bool
  /-- `STATUS.ERRCODE` (R30, R237). -/
  errcode : ErrCode
  /-- `STATUS.CVALID` (R30): a cipher object exists. -/
  cvalid : Bool
  /-- `STATUS.CSTREAM` (R30): a stream has been started on it. -/
  cstream : Bool
  /-- `STATUS.CRAW` (R30, R151): the cipher object is in raw mode. -/
  craw : Bool
  /-- `STATUS.AVALID` (R30): an authenticator object exists. -/
  avalid : Bool
  /-- `STATUS.PPHASE` (R30, R199). -/
  pphase : PPhase
  /-- `STATUS.TVALID` (R30): `TAG` holds the tag of the last completed computation. -/
  tvalid : Bool
  /-- `STATUS.WDROP` (R30, R271): a host write was dropped while busy. -/
  wdrop : Bool
  /-- `PENDING` (R56): the accepted command word, meaningful only while busy. -/
  pending : Word
  /-- `CTRIN` (R32). -/
  ctrin : Word
  /-- `BCTR` (R33): the counter of the next keystream block. -/
  bctr : Word
  /-- `KPOS` (R34): bytes of `KS` already used. -/
  kpos : BitVec 7
  /-- `KEYIN[0..7]` (R35). -/
  keyin : Vector Word 8
  /-- `NONCEIN[0..5]` (R36). -/
  noncein : Vector Word 6
  /-- `S[0..15]` (R37): the permutation state. -/
  st : Vector Word 16
  /-- `DIN[0..15]` (R38). -/
  din : Vector Word 16
  /-- `DOUT[0..15]` (R39). -/
  dout : Vector Word 16
  /-- `HOUT[0..7]` (R40). -/
  hout : Vector Word 8
  /-- `PKEYIN[0..7]` (R41). -/
  pkeyin : Vector Word 8
  /-- `FA[0..4]` (R42): `val(FA)`. -/
  fa : BitVec 130
  /-- `FB[0..4]` (R43): `val(FB)`. -/
  fb : BitVec 130
  /-- `FR[0..4]` (R44): `val(FR)`. -/
  fr : BitVec 130
  /-- `TAG[0..3]` (R45): `val(TAG)`. -/
  tag : BitVec 128
  /-- `TAGIN[0..3]` (R46). -/
  tagin : BitVec 128
  /-- `H[0..4]` (R47): the accumulator. -/
  h : BitVec 130
  /-- `R[0..3]` (R48): the clamped multiplier. -/
  r : BitVec 128
  /-- `PAD[0..3]` (R49). -/
  pad : BitVec 128
  /-- `SK[0..7]` (R50): the stream subkey. -/
  sk : Vector Word 8
  /-- `N12[0..2]` (R51): the generator nonce. -/
  n12 : Vector Word 3
  /-- `KS[0..15]` (R52): the last generated keystream block. -/
  ks : Vector Word 16
  /-- `CKEY[0..7]` (R53). -/
  ckey : Vector Word 8
  /-- `CNONCE[0..5]` (R54). -/
  cnonce : Vector Word 6
  /-- `CCTR0` (R55). -/
  cctr0 : Word
  /-- The level of the input pin `rst_n` (R61, R261): false while reset is asserted (log 6). -/
  rstN : Bool
  /-- The host's program (R22): its list of bus operations (log 5). -/
  program : List HostOp
  /-- The host's index into its program (R22). -/
  hostPos : Nat
  /-- The values the host's reads returned, newest first; the head is the port's `rdata` (R61, R107). -/
  readLog : List Word
  /-- MODEL'S OWN: host turns left before the engine steps (log 4). -/
  delay : Nat
  /-- MODEL'S OWN: how many free values have been drawn (log 3). -/
  draws : Nat
  deriving DecidableEq, Repr

/-- The state right after reset of a block built with a given variant (R261, R263): every register 0 but `CAP`, no
object, no command in flight; the host has no program. `PENDING` holds the value log 2 names. -/
def State.resetFor (v : PolyVariant) : State where
  variant := v
  ie := false
  busy := false
  done := false
  err := false
  eq := false
  errcode := .none
  cvalid := false
  cstream := false
  craw := false
  avalid := false
  pphase := .idle
  tvalid := false
  wdrop := false
  pending := 0
  ctrin := 0
  bctr := 0
  kpos := 0
  keyin := Vector.replicate 8 0
  noncein := Vector.replicate 6 0
  st := Vector.replicate 16 0
  din := Vector.replicate 16 0
  dout := Vector.replicate 16 0
  hout := Vector.replicate 8 0
  pkeyin := Vector.replicate 8 0
  fa := 0
  fb := 0
  fr := 0
  tag := 0
  tagin := 0
  h := 0
  r := 0
  pad := 0
  sk := Vector.replicate 8 0
  n12 := Vector.replicate 3 0
  ks := Vector.replicate 16 0
  ckey := Vector.replicate 8 0
  cnonce := Vector.replicate 6 0
  cctr0 := 0
  rstN := true
  program := []
  hostPos := 0
  readLog := []
  delay := 0
  draws := 0

/-- The machine right after reset, built with the spec's default variant (R6, R261). -/
def State.reset : State := State.resetFor .rfc8439

end Sys2Proof.Machine
end

