-- ==== Sys2Proof/Machine/Operands.lean ====
section
/-!
DEFINITION. The operand forms of the spec: word arithmetic (spec/00_scope.md R11), little-endian conversions (R13), the
byte view of a register array (R14), the words and bytes of a multi-word integer register (spec/10_state.md R24), the
field modulus (R12) and SIGMA (R57).
-/

namespace Sys2Proof.Machine

/-- `rotl32(x, n)` for 0 < n < 32 (R11): a circular left shift. -/
def rotl32 (x : Word) (n : Nat) : Word := (x <<< n) ||| (x >>> (32 - n))

/-- The prime p = 2^130 - 5 (R12). -/
def fieldPrime : Nat := 2 ^ 130 - 5

/-- `SIGMA[0..3]` (R57): "expand 32-byte k", four little-endian words. -/
def sigma : Vector Word 4 := #v[0x61707865#32, 0x3320646E#32, 0x79622D32#32, 0x6B206574#32]

/-- `LE(b0 ‖ b1 ‖ ...)` (R13): the sum of b_i · 2^(8i). -/
def leValue : List Byte → Nat
  | [] => 0
  | b :: bs => b.toNat + 256 * leValue bs

/-- `le_bytes_n(v)` (R13): the n bytes whose LE value is v mod 2^(8n). -/
def leBytes : Nat → Nat → List Byte
  | 0, _ => []
  | n + 1, v => BitVec.ofNat 8 v :: leBytes n (v / 256)

/-- Byte `k` of a word: bits 8k+7 to 8k (R14). -/
def wordByte (w : Word) (k : Nat) : Byte := w.extractLsb' (8 * k) 8

/-- A word with byte `k` replaced; the other bits stay (R14). -/
def setWordByte (w : Word) (k : Nat) (b : Byte) : Word :=
  (w &&& ~~~(0xFF#32 <<< (8 * k))) ||| (b.setWidth 32 <<< (8 * k))

/-- `byte(A, j)` (R14); 0 past the array's end, which no rule reads (log 13). -/
def byteOf {n : Nat} (A : Vector Word n) (j : Nat) : Byte := wordByte (A[j / 4]?.getD 0) (j % 4)

/-- `byte(A, j) <- v` (R14). -/
def setByte {n : Nat} (A : Vector Word n) (j : Nat) (v : Byte) : Vector Word n :=
  if h : j / 4 < n then A.set (j / 4) (setWordByte A[j / 4] (j % 4) v) h else A

/-- `byte(A, start) ‖ ... ‖ byte(A, start + len - 1)`. -/
def bytesFrom {n : Nat} (A : Vector Word n) (start len : Nat) : List Byte :=
  (List.range len).map fun j => byteOf A (start + j)

/-- Word `i` of a multi-word integer register (R24): bits 32i+31 to 32i, bits the register does not have reading as 0
(R26). -/
def numWord {n : Nat} (x : BitVec n) (i : Nat) : Word := x.extractLsb' (32 * i) 32

/-- The register with word `i` replaced: the bits the register has take v's bits, reserved bits are dropped (R42, R65). -/
def setNumWord {n : Nat} (x : BitVec n) (i : Nat) (v : Word) : BitVec n :=
  (x &&& ~~~((0xFFFFFFFF#32).setWidth n <<< (32 * i))) ||| (v.setWidth n <<< (32 * i))

/-- Byte `j` of a multi-word integer register (R24). -/
def numByte {n : Nat} (x : BitVec n) (j : Nat) : Byte := x.extractLsb' (8 * j) 8

/-- The first `len` bytes of a multi-word integer register. -/
def numBytes {n : Nat} (x : BitVec n) (len : Nat) : List Byte := (List.range len).map (numByte x)

end Sys2Proof.Machine
end

