-- ==== Sys2Proof/Machine/Flags.lean ====
section
/-!
DEFINITION. The status word and the interrupt line: how the fields of `STATUS` stand in its bits (spec/10_state.md
R30), its write-one-to-clear write (spec/20_memory.md R65), `CTRL` as read (R29) and `irq` (spec/60_exceptions.md R241).
-/

namespace Sys2Proof.Machine

/-- The value `STATUS[7:4]` takes for an error code (R237). -/
def errCodeBits : ErrCode → BitVec 4
  | .none => 0
  | .size => 1
  | .noInit => 2
  | .seq => 3
  | .len => 4
  | .opc => 5

/-- The value `STATUS[13:12]` takes for a phase (R199). -/
def pphaseBits : PPhase → BitVec 2
  | .idle => 0
  | .active => 1
  | .tailed => 2
  | .done => 3

/-- `STATUS` as a host read returns it (R30): the fields at their bits, reserved bits 0. -/
def statusWord (s : State) : Word :=
  0#16 ++ BitVec.ofBool s.wdrop ++ BitVec.ofBool s.tvalid ++ pphaseBits s.pphase ++ BitVec.ofBool s.avalid ++
    BitVec.ofBool s.craw ++ BitVec.ofBool s.cstream ++ BitVec.ofBool s.cvalid ++ errCodeBits s.errcode ++
    BitVec.ofBool s.eq ++ BitVec.ofBool s.err ++ BitVec.ofBool s.done ++ BitVec.ofBool s.busy

/-- A host write to `STATUS` (R30, R65): each W1C bit written 1 is cleared, clearing `ERR` also clears `ERRCODE`, and
nothing else changes. -/
def writeStatus (v : Word) (s : State) : State :=
  { s with
    done := s.done && !v.getLsbD 1
    err := s.err && !v.getLsbD 2
    errcode := if v.getLsbD 2 then .none else s.errcode
    wdrop := s.wdrop && !v.getLsbD 15 }

/-- `CTRL` as read (R29): bit 0 is `IE`; `SRST` and the reserved bits read 0. -/
def ctrlWord (s : State) : Word := 0#31 ++ BitVec.ofBool s.ie

/-- `irq = CTRL.IE AND STATUS.DONE` (R241). -/
def irq (s : State) : Bool := s.ie && s.done

end Sys2Proof.Machine
end

