-- ==== Sys2Proof/Machine/Ops.lean ====
section
/-!
DEFINITION. The operations every command and every access is built from: acceptance of a command
(spec/60_exceptions.md R232), completion with or without an error (R233, R235, R236), hardware and soft reset
(spec/70_reset_and_hazards.md R261, R262) and the draw of a free value. Error completion is the block's only
exception; there is no trap entry and no return from one (R242, R243).
-/

namespace Sys2Proof.Machine

/-- Completion of a command with a code (R233): `BUSY` <- 0, `DONE` <- 1, and when the code is not 0 `ERR` <- 1 and
`ERRCODE` <- code. -/
def complete (code : ErrCode) (s : State) : State :=
  { s with
    busy := false
    done := true
    err := s.err || decide (code ≠ .none)
    errcode := if code = .none then s.errcode else code }

/-- A command that ends without a raise (R235). -/
def finish (s : State) : Host.Outcome State Fault Refusal := .next (complete .none s)

/-- `raise E_X` (R15, R236): the command ends at once; its state changes are those its rule made before. The block's
one exception: it saves the code in `ERRCODE`, changes no mode and has no handler (R242). -/
def raiseError (code : ErrCode) (s : State) : Host.Outcome State Fault Refusal := .next (complete code s)

/-- Acceptance of a word written to `CMD` while idle (R232). The model also draws how many turns the host takes before
the engine steps (R233, R239; log 4). -/
def accept (v : Word) (s : State) : State :=
  { s with
    pending := v
    busy := true
    done := false
    err := false
    errcode := .none
    delay := Config.engineDelay s.draws
    draws := s.draws + 1 }

/-- The effect of either reset on the block (R261, R262): every register takes its reset value, `PENDING` is
discarded and nothing of an in-flight command happens. The variant is the build's, and the host's fields, the pin and
the count of draws are not the block's. -/
def blockReset (s : State) : State :=
  { State.resetFor s.variant with
    rstN := s.rstN
    program := s.program
    hostPos := s.hostPos
    readLog := s.readLog
    draws := s.draws }

/-- Draw an unspecified word (R67, R261; log 3). -/
def drawWord (s : State) : Word × State := (Config.freeWord s.draws, { s with draws := s.draws + 1 })

end Sys2Proof.Machine
end

