-- ==== Sys2Proof/Machine/Field.lean ====
section
/-!
DEFINITION. Field arithmetic modulo p = 2^130 - 5 (spec/44_field.md R181 to R185): FADD and FMUL.
-/

namespace Sys2Proof.Machine

/-- The exact sum, then the remainder modulo p (R181, R184). -/
def fieldAdd (a b : Nat) : Nat := (a + b) % fieldPrime

/-- The full product, then the remainder modulo p (R182, R184). -/
def fieldMul (a b : Nat) : Nat := (a * b) % fieldPrime

/-- FADD (R181). -/
def execFadd (s : State) : Host.Outcome State Fault Refusal :=
  finish { s with fr := BitVec.ofNat 130 (fieldAdd s.fa.toNat s.fb.toNat) }

/-- FMUL (R182). -/
def execFmul (s : State) : Host.Outcome State Fault Refusal :=
  finish { s with fr := BitVec.ofNat 130 (fieldMul s.fa.toNat s.fb.toNat) }

end Sys2Proof.Machine
end

