-- ==== Sys2Proof/Machine/Auth.lean ====
section
/-!
DEFINITION. The polynomial authenticator and the tag comparator (spec/45_auth.md R196 to R212): clamp, block encoding
and fold in both variants, and the commands P_INIT, P_START, P_BLOCK, P_FINAL and TAGCMP.
-/

namespace Sys2Proof.Machine

/-- What `clamp` does to byte `i` of the multiplier half (R197). -/
def clampByte (v : PolyVariant) (i : Nat) (b : Byte) : Byte :=
  match v with
  | .rfc8439 =>
    if i = 3 ∨ i = 7 ∨ i = 11 ∨ i = 15 then b &&& 0x0F#8
    else if i = 4 ∨ i = 8 ∨ i = 12 then b &&& 0xFC#8
    else b
  | .docLiteral => if i = 3 ∨ i = 7 ∨ i = 11 ∨ i = 15 then (b &&& 0x0F#8) ||| 0x04#8 else b

/-- `clamp(rb)` (R197). -/
def clamp (v : PolyVariant) (rb : List Byte) : List Byte := rb.mapIdx (clampByte v)

/-- `n(b, L)` for a block of L = length bytes, 1 ≤ L ≤ 16 (R198). -/
def blockValue (v : PolyVariant) (b : List Byte) : Nat :=
  match v with
  | .rfc8439 => leValue b + 2 ^ (8 * b.length)
  | .docLiteral => if b.length = 16 then leValue b else leValue b + 2 ^ 127

/-- `fold(h, n)` (R202): the sum and the product exact, then the remainder modulo p. -/
def fold (r h n : Nat) : Nat := ((h + n) * r) % fieldPrime

/-- P_INIT (R200). -/
def execPInit (klen : Nat) (s : State) : Host.Outcome State Fault Refusal :=
  let s := { s with pphase := .idle, tvalid := false, eq := false }
  if klen ≠ 32 then raiseError .size { s with avalid := false }
  else
    finish { s with
      r := BitVec.ofNat 128 (leValue (clamp s.variant (bytesFrom s.pkeyin 0 16)))
      pad := BitVec.ofNat 128 (leValue (bytesFrom s.pkeyin 16 16))
      h := 0
      avalid := true }

/-- P_START (R201): accepted in every phase. -/
def execPStart (s : State) : Host.Outcome State Fault Refusal :=
  if s.avalid then finish { s with h := 0, pphase := .active, tvalid := false, eq := false }
  else raiseError .noInit s

/-- P_BLOCK (R203). -/
def execPBlock (len : Nat) (s : State) : Host.Outcome State Fault Refusal :=
  if len = 0 ∨ len > 16 then raiseError .len s
  else if s.avalid = false then raiseError .noInit s
  else if s.pphase ≠ .active then raiseError .seq s
  else
    finish { s with
      h := BitVec.ofNat 130 (fold s.r.toNat s.h.toNat (blockValue s.variant (bytesFrom s.din 0 len)))
      pphase := if len < 16 then .tailed else s.pphase }

/-- The accumulator P_FINAL adds the pad to: in DOC_LITERAL with no short block folded, one more fold of 2^127 (R204). -/
def finalAccumulator (s : State) : BitVec 130 :=
  if s.variant = .docLiteral ∧ s.pphase = .active then
    BitVec.ofNat 130 (fold s.r.toNat s.h.toNat (2 ^ 127))
  else s.h

/-- P_FINAL (R205): the pad is added modulo 2^128. -/
def execPFinal (s : State) : Host.Outcome State Fault Refusal :=
  if s.avalid = false then raiseError .noInit s
  else if s.pphase ≠ .active ∧ s.pphase ≠ .tailed then raiseError .seq s
  else
    finish { s with
      h := finalAccumulator s
      tag := BitVec.ofNat 128 ((finalAccumulator s).toNat + s.pad.toNat)
      tvalid := true
      pphase := .done }

/-- `ct_eq(a, b)` (R208): every byte pair is examined and combined, no early exit. -/
def ctEq (a b : List Byte) : Bool :=
  (List.zipWith (fun x y => x ^^^ y) a b).foldl (fun diff x => diff ||| x) 0 == 0

/-- TAGCMP (R207). -/
def execTagcmp (len : Nat) (s : State) : Host.Outcome State Fault Refusal :=
  if len ≠ 16 then finish { s with eq := false }
  else if s.tvalid = false then raiseError .seq { s with eq := false }
  else finish { s with eq := ctEq (numBytes s.tag 16) (numBytes s.tagin 16) }

end Sys2Proof.Machine
end

