-- ==== Sys2Proof/Machine/Permutation.lean ====
section
/-!
DEFINITION. The permutation core (spec/41_permutation.md R121 to R130): QR, COLROUND, DIAGROUND, DOUBLEROUND, PERM,
PERMFF and NOP, over the functions every other family uses.
-/

namespace Sys2Proof.Machine

/-- `X[a] <- X[a] +32 X[b];  X[d] <- rotl32(X[d] ^ X[a], n)`, in that order on the one array (R121). -/
def qrHalf (X : Vector Word 16) (a b d : Fin 16) (n : Nat) : Vector Word 16 :=
  let Y := X.set a (X[a] + X[b])
  Y.set d (rotl32 (Y[d] ^^^ Y[a]) n)

/-- `qr(X, a, b, c, d)` (R121): the four statements in order, whether or not the indices are distinct. -/
def qr (X : Vector Word 16) (a b c d : Fin 16) : Vector Word 16 :=
  let X := qrHalf X a b d 16
  let X := qrHalf X c d b 12
  let X := qrHalf X a b d 8
  qrHalf X c d b 7

/-- `colround(X)` on the column groups (R122). -/
def colround (X : Vector Word 16) : Vector Word 16 :=
  qr (qr (qr (qr X 0 4 8 12) 1 5 9 13) 2 6 10 14) 3 7 11 15

/-- `diaground(X)` on the diagonal groups (R123). -/
def diaground (X : Vector Word 16) : Vector Word 16 :=
  qr (qr (qr (qr X 0 5 10 15) 1 6 11 12) 2 7 8 13) 3 4 9 14

/-- `doubleround(X)`: the column round first (R124). -/
def doubleround (X : Vector Word 16) : Vector Word 16 := diaground (colround X)

/-- `n` double rounds. -/
def doublerounds : Nat → Vector Word 16 → Vector Word 16
  | 0, X => X
  | n + 1, X => doubleround (doublerounds n X)

/-- `perm20(X)`: 10 double rounds, no feed-forward (R125). -/
def perm20 (X : Vector Word 16) : Vector Word 16 := doublerounds 10 X

/-- `permff(X)`: the pre-round state added word by word modulo 2^32 (R126). -/
def permff (X : Vector Word 16) : Vector Word 16 := Vector.zipWith (fun y x => y + x) (perm20 X) X

/-- NOP (R129): completion only. -/
def execNop (s : State) : Host.Outcome State Fault Refusal := finish s

/-- QR (R121). -/
def execQr (a b c d : Fin 16) (s : State) : Host.Outcome State Fault Refusal :=
  finish { s with st := qr s.st a b c d }

/-- COLROUND (R122). -/
def execColround (s : State) : Host.Outcome State Fault Refusal := finish { s with st := colround s.st }

/-- DIAGROUND (R123). -/
def execDiaground (s : State) : Host.Outcome State Fault Refusal := finish { s with st := diaground s.st }

/-- DOUBLEROUND (R124). -/
def execDoubleround (s : State) : Host.Outcome State Fault Refusal := finish { s with st := doubleround s.st }

/-- PERM (R125). -/
def execPerm (s : State) : Host.Outcome State Fault Refusal := finish { s with st := perm20 s.st }

/-- PERMFF (R126). -/
def execPermff (s : State) : Host.Outcome State Fault Refusal := finish { s with st := permff s.st }

end Sys2Proof.Machine
end

