-- ==== Sys2Proof/Machine/Subkey.lean ====
section
/-!
DEFINITION. Subkey derivation (spec/42_subkey.md R141 to R144): the function `hchacha` and the HCHACHA command.
-/

namespace Sys2Proof.Machine

/-- The 16-word state of R141 and R153: SIGMA, the eight key words, then four more words. -/
def keyedState (K : Vector Word 8) (T : Vector Word 4) : Vector Word 16 :=
  #v[sigma[0], sigma[1], sigma[2], sigma[3], K[0], K[1], K[2], K[3],
     K[4], K[5], K[6], K[7], T[0], T[1], T[2], T[3]]

/-- `hchacha(K, N)` (R141): words 0..3 and 12..15 of the permuted state, no feed-forward (R143). -/
def hchacha (K : Vector Word 8) (N : Vector Word 4) : Vector Word 8 :=
  let Y := perm20 (keyedState K N)
  #v[Y[0], Y[1], Y[2], Y[3], Y[12], Y[13], Y[14], Y[15]]

/-- Words 0..3 of a 24-byte nonce: the derivation nonce (R152). -/
def noncePrefix (N : Vector Word 6) : Vector Word 4 := #v[N[0], N[1], N[2], N[3]]

/-- HCHACHA (R142): reads the staging registers, not the cipher object. -/
def execHchacha (s : State) : Host.Outcome State Fault Refusal :=
  finish { s with hout := hchacha s.keyin (noncePrefix s.noncein) }

end Sys2Proof.Machine
end

