-- ==== Sys2Proof/Machine/Cipher.lean ====
section
/-!
DEFINITION. The keystream generator and the XOR pipeline (spec/43_cipher.md R151 to R163): `block`, and the commands
C_INIT, C_START and C_XOR.
-/

namespace Sys2Proof.Machine

/-- `block(K, ctr, N12)` (R153) as 16 words; its 64 bytes are their little-endian serialisation (R14). -/
def block (K : Vector Word 8) (ctr : Word) (N12 : Vector Word 3) : Vector Word 16 :=
  permff (keyedState K #v[ctr, N12[0], N12[1], N12[2]])

/-- The nonce length C_INIT expects (R156). -/
def expectedNonceLen (raw : Bool) : Nat := if raw then 12 else 24

/-- C_INIT (R156). -/
def execCInit (klen nlen : Nat) (raw : Bool) (s : State) : Host.Outcome State Fault Refusal :=
  if klen ≠ 32 ∨ nlen ≠ expectedNonceLen raw then
    raiseError .size { s with cvalid := false, cstream := false }
  else
    finish { s with
      ckey := s.keyin
      cnonce := s.noncein
      cctr0 := s.ctrin
      craw := raw
      cvalid := true
      cstream := false }

/-- The subkey C_START sets: the key itself in raw mode, the derived one otherwise (R151, R157). -/
def streamKey (raw : Bool) (K : Vector Word 8) (N : Vector Word 6) : Vector Word 8 :=
  if raw then K else hchacha K (noncePrefix N)

/-- The generator nonce C_START sets (R152, R157). -/
def streamNonce (raw : Bool) (N : Vector Word 6) : Vector Word 3 :=
  if raw then #v[N[0], N[1], N[2]] else #v[0, N[4], N[5]]

/-- C_START (R157): always from the stored counter. -/
def execCStart (s : State) : Host.Outcome State Fault Refusal :=
  if s.cvalid then
    finish { s with
      sk := streamKey s.craw s.ckey s.cnonce
      n12 := streamNonce s.craw s.cnonce
      bctr := s.cctr0
      kpos := 64
      cstream := true }
  else raiseError .noInit s

/-- The generation of a block when a byte needs one (R158): `KS`, `BCTR` modulo 2^32, `KPOS`. -/
def refill (s : State) : State :=
  if s.kpos = 64 then
    { s with ks := block s.sk s.bctr s.n12, bctr := s.bctr + 1, kpos := 0 }
  else s

/-- Byte `j` of the XOR loop (R158). `DOUT` stands for the rule's OUT: the loop never reads it. -/
def xorByte (z : Bool) (j : Nat) (s : State) : State :=
  let s := refill s
  let d := if z then 0 else byteOf s.din j
  { s with dout := setByte s.dout j (d ^^^ byteOf s.ks s.kpos.toNat), kpos := s.kpos + 1 }

/-- The XOR loop over bytes 0..len-1, from an output of 64 zero bytes (R158). -/
def xorBytes (z : Bool) : Nat → State → State
  | 0, s => { s with dout := Vector.replicate 16 0 }
  | n + 1, s => xorByte z n (xorBytes z n s)

/-- C_XOR (R158). -/
def execCXor (len : Nat) (z : Bool) (s : State) : Host.Outcome State Fault Refusal :=
  if len > 64 then raiseError .len s
  else if s.cvalid = false then raiseError .noInit s
  else if s.cstream = false then raiseError .seq s
  else finish (xorBytes z len s)

end Sys2Proof.Machine
end

