-- ==== Sys2Proof/Machine/Dispatch.lean ====
section
/-!
DEFINITION. exec: one arm per command of spec/30_encoding.md R97, each one call of that command's meaning, its rule of
spec/41 to spec/45 together with its completion (spec/60_exceptions.md R233).
-/

namespace Sys2Proof.Machine

def exec (i : Instr) (s : State) : Host.Outcome State Fault Refusal :=
  match i with
  | .nop => Sys2Proof.Machine.execNop s
  | .qr a b c d => Sys2Proof.Machine.execQr a b c d s
  | .colround => Sys2Proof.Machine.execColround s
  | .diaground => Sys2Proof.Machine.execDiaground s
  | .doubleround => Sys2Proof.Machine.execDoubleround s
  | .perm => Sys2Proof.Machine.execPerm s
  | .permff => Sys2Proof.Machine.execPermff s
  | .hchacha => Sys2Proof.Machine.execHchacha s
  | .cInit klen nlen raw => Sys2Proof.Machine.execCInit klen nlen raw s
  | .cStart => Sys2Proof.Machine.execCStart s
  | .cXor len z => Sys2Proof.Machine.execCXor len z s
  | .fadd => Sys2Proof.Machine.execFadd s
  | .fmul => Sys2Proof.Machine.execFmul s
  | .pInit klen => Sys2Proof.Machine.execPInit klen s
  | .pStart => Sys2Proof.Machine.execPStart s
  | .pBlock len => Sys2Proof.Machine.execPBlock len s
  | .pFinal => Sys2Proof.Machine.execPFinal s
  | .tagcmp len => Sys2Proof.Machine.execTagcmp len s

end Sys2Proof.Machine
end

