-- ==== Sys2Proof/Machine/Window.lean ====
section
/-!
DEFINITION. The register window (spec/10_state.md R23 to R56): which register stands at which word index, what a host
read returns (spec/20_memory.md R64, R67) and what a host write does (R65, spec/70_reset_and_hazards.md R271).
-/

namespace Sys2Proof.Machine

/-- A word of the window (R23); `reserved` is every offset the table does not list (R26). -/
inductive Reg where
  | id
  | version
  | cap
  | ctrl
  | status
  | cmd
  | ctrin
  | bctr
  | kpos
  | keyin (i : Fin 8)
  | noncein (i : Fin 6)
  | st (i : Fin 16)
  | din (i : Fin 16)
  | dout (i : Fin 16)
  | hout (i : Fin 8)
  | pkeyin (i : Fin 8)
  | fa (i : Fin 5)
  | fb (i : Fin 5)
  | fr (i : Fin 5)
  | tag (i : Fin 4)
  | tagin (i : Fin 4)
  | h (i : Fin 5)
  | r (i : Fin 4)
  | pad (i : Fin 4)
  | sk (i : Fin 8)
  | n12 (i : Fin 3)
  | ks (i : Fin 16)
  | ckey (i : Fin 8)
  | cnonce (i : Fin 6)
  | cctr0
  | reserved
  deriving DecidableEq, Repr

/-- The register at byte offset 4·n of the window (R23), from the table's offsets. -/
def regAtNat (n : Nat) : Reg :=
  if n = 0x000 / 4 then .id
  else if n = 0x004 / 4 then .version
  else if n = 0x008 / 4 then .cap
  else if n = 0x00C / 4 then .ctrl
  else if n = 0x010 / 4 then .status
  else if n = 0x014 / 4 then .cmd
  else if n = 0x018 / 4 then .ctrin
  else if n = 0x01C / 4 then .bctr
  else if n = 0x020 / 4 then .kpos
  else if h : 0x040 / 4 ≤ n ∧ n < 0x060 / 4 then .keyin ⟨n - 0x040 / 4, by omega⟩
  else if h : 0x060 / 4 ≤ n ∧ n < 0x078 / 4 then .noncein ⟨n - 0x060 / 4, by omega⟩
  else if h : 0x080 / 4 ≤ n ∧ n < 0x0C0 / 4 then .st ⟨n - 0x080 / 4, by omega⟩
  else if h : 0x0C0 / 4 ≤ n ∧ n < 0x100 / 4 then .din ⟨n - 0x0C0 / 4, by omega⟩
  else if h : 0x100 / 4 ≤ n ∧ n < 0x140 / 4 then .dout ⟨n - 0x100 / 4, by omega⟩
  else if h : 0x140 / 4 ≤ n ∧ n < 0x160 / 4 then .hout ⟨n - 0x140 / 4, by omega⟩
  else if h : 0x160 / 4 ≤ n ∧ n < 0x180 / 4 then .pkeyin ⟨n - 0x160 / 4, by omega⟩
  else if h : 0x180 / 4 ≤ n ∧ n < 0x194 / 4 then .fa ⟨n - 0x180 / 4, by omega⟩
  else if h : 0x1A0 / 4 ≤ n ∧ n < 0x1B4 / 4 then .fb ⟨n - 0x1A0 / 4, by omega⟩
  else if h : 0x1C0 / 4 ≤ n ∧ n < 0x1D4 / 4 then .fr ⟨n - 0x1C0 / 4, by omega⟩
  else if h : 0x1E0 / 4 ≤ n ∧ n < 0x1F0 / 4 then .tag ⟨n - 0x1E0 / 4, by omega⟩
  else if h : 0x1F0 / 4 ≤ n ∧ n < 0x200 / 4 then .tagin ⟨n - 0x1F0 / 4, by omega⟩
  else if h : 0x200 / 4 ≤ n ∧ n < 0x214 / 4 then .h ⟨n - 0x200 / 4, by omega⟩
  else if h : 0x220 / 4 ≤ n ∧ n < 0x230 / 4 then .r ⟨n - 0x220 / 4, by omega⟩
  else if h : 0x230 / 4 ≤ n ∧ n < 0x240 / 4 then .pad ⟨n - 0x230 / 4, by omega⟩
  else if h : 0x240 / 4 ≤ n ∧ n < 0x260 / 4 then .sk ⟨n - 0x240 / 4, by omega⟩
  else if h : 0x260 / 4 ≤ n ∧ n < 0x26C / 4 then .n12 ⟨n - 0x260 / 4, by omega⟩
  else if h : 0x280 / 4 ≤ n ∧ n < 0x2C0 / 4 then .ks ⟨n - 0x280 / 4, by omega⟩
  else if h : 0x2C0 / 4 ≤ n ∧ n < 0x2E0 / 4 then .ckey ⟨n - 0x2C0 / 4, by omega⟩
  else if h : 0x2E0 / 4 ≤ n ∧ n < 0x2F8 / 4 then .cnonce ⟨n - 0x2E0 / 4, by omega⟩
  else if n = 0x2F8 / 4 then .cctr0
  else .reserved

/-- The register a word index `addr[9:2]` of the port names (R61, R63). -/
def regAt (idx : BitVec 8) : Reg := regAtNat idx.toNat

/-- The word index of a byte offset of the window (R63). -/
def idxOf (offset : Nat) : BitVec 8 := BitVec.ofNat 8 (offset / 4)

/-- The word index the port carries for a host bus address, for a block placed at `base` (R7, R63; log 8). -/
def portIndex (base address : Int) : BitVec 8 := BitVec.ofInt 8 ((address - base) / 4)

/-- The current value of a register with its reserved bits as 0 (R26, R64); `CMD` and reserved offsets read 0. -/
def readReg (s : State) : Reg → Word
  | .id => 0x50324358#32
  | .version => 0x00000001#32
  | .cap => s.variant.cap
  | .ctrl => ctrlWord s
  | .status => statusWord s
  | .cmd => 0
  | .ctrin => s.ctrin
  | .bctr => s.bctr
  | .kpos => s.kpos.setWidth 32
  | .keyin i => s.keyin[i]
  | .noncein i => s.noncein[i]
  | .st i => s.st[i]
  | .din i => s.din[i]
  | .dout i => s.dout[i]
  | .hout i => s.hout[i]
  | .pkeyin i => s.pkeyin[i]
  | .fa i => numWord s.fa i
  | .fb i => numWord s.fb i
  | .fr i => numWord s.fr i
  | .tag i => numWord s.tag i
  | .tagin i => numWord s.tagin i
  | .h i => numWord s.h i
  | .r i => numWord s.r i
  | .pad i => numWord s.pad i
  | .sk i => s.sk[i]
  | .n12 i => s.n12[i]
  | .ks i => s.ks[i]
  | .ckey i => s.ckey[i]
  | .cnonce i => s.cnonce[i]
  | .cctr0 => s.cctr0
  | .reserved => 0

/-- `MemRead(off, 4)` while the read is specified (R64): it changes no state. -/
def memRead (s : State) (idx : BitVec 8) : Word := readReg s (regAt idx)

/-- The registers whose reads stay specified while `BUSY` = 1 (R67). -/
def readableBusy : Reg → Bool
  | .id => true
  | .version => true
  | .cap => true
  | .ctrl => true
  | .status => true
  | _ => false

/-- A read at the port: the current value, or a draw while busy (R67) or while `rst_n` = 0 (R261). -/
def hostRead (idx : BitVec 8) (s : State) : Word × State :=
  if s.rstN && (!s.busy || readableBusy (regAt idx)) then (memRead s idx, s) else drawWord s

/-- A soft reset request: a write to `CTRL` with bit 1 = 1 (R29, R262). -/
def isSoftReset (reg : Reg) (v : Word) : Bool := decide (reg = .ctrl) && v.getLsbD 1

/-- `MemWrite` while idle (R65), register by register: RW registers take v's non-reserved bits; `STATUS` is W1C;
`CTRL` is R29; `CMD` issues v (R232); RO and reserved offsets ignore the write. -/
def writeReg (reg : Reg) (v : Word) (s : State) : State :=
  match reg with
  | .ctrl => if v.getLsbD 1 then blockReset s else { s with ie := v.getLsbD 0 }
  | .status => writeStatus v s
  | .cmd => accept v s
  | .ctrin => { s with ctrin := v }
  | .keyin i => { s with keyin := s.keyin.set i v }
  | .noncein i => { s with noncein := s.noncein.set i v }
  | .st i => { s with st := s.st.set i v }
  | .din i => { s with din := s.din.set i v }
  | .pkeyin i => { s with pkeyin := s.pkeyin.set i v }
  | .fa i => { s with fa := setNumWord s.fa i v }
  | .fb i => { s with fb := setNumWord s.fb i v }
  | .tagin i => { s with tagin := setNumWord s.tagin i v }
  | .id => s
  | .version => s
  | .cap => s
  | .bctr => s
  | .kpos => s
  | .dout _ => s
  | .hout _ => s
  | .fr _ => s
  | .tag _ => s
  | .h _ => s
  | .r _ => s
  | .pad _ => s
  | .sk _ => s
  | .n12 _ => s
  | .ks _ => s
  | .ckey _ => s
  | .cnonce _ => s
  | .cctr0 => s
  | .reserved => s

/-- A write while busy (R271): dropped, `WDROP` <- 1, but for a soft reset. -/
def writeBusy (reg : Reg) (v : Word) (s : State) : State :=
  if isSoftReset reg v then blockReset s else { s with wdrop := true }

/-- `MemWrite(off, 4, v)` (R65, R271). -/
def memWrite (idx : BitVec 8) (v : Word) (s : State) : State :=
  if s.busy then writeBusy (regAt idx) v s else writeReg (regAt idx) v s

/-- A write at the port: no effect while `rst_n` = 0 (R261). -/
def hostWrite (idx : BitVec 8) (v : Word) (s : State) : State := if s.rstN then memWrite idx v s else s

end Sys2Proof.Machine
end

