-- ==== Sys2Proof/Machine/Turns.lean ====
section
/-!
DEFINITION. The turns of the two agents (spec/10_state.md R21): the engine's one step (spec/60_exceptions.md R233), one
operation of the host's program (spec/30_encoding.md R102, R104), and whose turn it is (R239).
-/

namespace Sys2Proof.Machine

/-- The engine's step (R233): decode `PENDING` and run its rule; an illegal word completes with `E_OPC` and changes
nothing else (R234). -/
def engineStep (s : State) : Host.Outcome State Fault Refusal :=
  match decode s.pending with
  | .ok i => exec i s
  | .error _ => raiseError .opc s

/-- The word index of `STATUS`. -/
def statusIdx : BitVec 8 := idxOf 0x010

/-- The word index of `CMD`. -/
def cmdIdx : BitVec 8 := idxOf 0x014

/-- The word index of `CTRL`. -/
def ctrlIdx : BitVec 8 := idxOf 0x00C

/-- The host goes on to its next operation (R22). -/
def advance (s : State) : State := { s with hostPos := s.hostPos + 1 }

/-- A read at the port that the host records (R61, R107). -/
def recordRead (p : Word × State) : State := { p.2 with readLog := p.1 :: p.2.readLog }

/-- The platform drives `rst_n` to a level (R261): low resets the block, and so does the return to 1; a pin that is
already 1 stays so and nothing else happens (log 6). -/
def driveResetPin (level : Bool) (s : State) : State :=
  if s.rstN && level then s else blockReset { s with rstN := level }

/-- One operation of the host (R22, R64, R65, R104) or one event at `rst_n` (R261). -/
def hostOp (op : HostOp) (s : State) : State :=
  match op with
  | .rd idx => advance (recordRead (hostRead idx s))
  | .wr idx v => advance (hostWrite idx v s)
  | .wait =>
    let p := hostRead statusIdx s
    if p.1.getLsbD 0 then recordRead p else advance (recordRead p)
  | .waitIrq => if irq s then advance s else s
  | .rstN level => advance (driveResetPin level s)

/-- The operation at the host's position, if its program has one (R22). -/
def nextOp (s : State) : Option HostOp := s.program[s.hostPos]?

/-- The host's turn: its next operation; nothing when its program has ended (R250, R279). -/
def hostTurn (s : State) : State :=
  match nextOp s with
  | some op => hostOp op s
  | none => s

/-- The engine's step is enabled (R233) and it is its turn (R239): no host turn is left before it, or the host's
program has ended (log 4). -/
def engineTurn (s : State) : Bool := s.busy && (decide (s.delay = 0) || (nextOp s).isNone)

/-- A turn the host takes while a command is in flight is one of those before the engine's step (log 4). -/
def countTurn (s : State) : State := if s.busy then { s with delay := s.delay - 1 } else s

/-- One transition of the whole machine. While `rst_n` = 0 the block is held at its reset values, whatever the host
does (R261). -/
def turn (s : State) : Host.Outcome State Fault Refusal :=
  if s.rstN = false then .next (blockReset (hostTurn s))
  else if engineTurn s then engineStep s
  else .next (hostTurn (countTurn s))

/-- The end of a run (R279): the host has performed its last operation and no accepted command is without its engine
step. -/
def ended (s : State) : Bool := (nextOp s).isNone && !s.busy

/-- A state whose host is about to run a program (R22; log 5). -/
def loadProgram (ops : List HostOp) (s : State) : State := { s with program := ops, hostPos := 0 }

/-- The word `w`, accepted (R232) and about to be run by the engine at the next transition: `rst_n` = 1 and no host
turn before it. -/
def acceptedNow (w : Word) (s : State) : State :=
  { s with
    rstN := true
    pending := w
    busy := true
    done := false
    err := false
    errcode := .none
    delay := 0 }

end Sys2Proof.Machine
end

