-- ==== Sys2Proof/Machine/Step.lean ====
section
/-!
DEFINITION. The step of the machine, and the state whose next step runs a given command word.
-/

namespace Sys2Proof.Machine

/-- One step: one turn of one agent (spec/10_state.md R21). -/
def step (s : State) : Host.Outcome State Fault Refusal := turn s

/-- The state in which the very next step runs the command word `w`: the block fetches nothing (R22), a word comes to
run by acceptance (R232), so `w` stands accepted in `PENDING` and the engine is next (log 5). -/
def State.withFetchWord (s : State) (nbits w : Nat) : State := acceptedNow (BitVec.ofNat 32 (w % 2 ^ nbits)) s

end Sys2Proof.Machine
end

