-- ==== Sys2Proof/Machine/Program.lean ====
section
/-!
DEFINITION. Host programs: the pseudo-instructions and their expansions (spec/30_encoding.md R103 to R108) and the host
sequences the spec gives (boot, spec/70_reset_and_hazards.md R265; encryption, spec/43_cipher.md R159; compute and
verify, spec/45_auth.md R209, R210).
-/

namespace Sys2Proof.Machine

/-- `wr OFF, V` (R102). -/
def wrOff (offset : Nat) (v : Word) : HostOp := .wr (idxOf offset) v

/-- `rd OFF` (R102). -/
def rdOff (offset : Nat) : HostOp := .rd (idxOf offset)

/-- `wr CMD, w`: a raw command word. -/
def cmdWord (w : Word) : HostOp := .wr cmdIdx w

/-- `cmd X` (R103). -/
def cmd (i : Instr) : HostOp := cmdWord (encode i)

/-- `run X` (R105). -/
def run (i : Instr) : List HostOp := [cmd i, .wait]

/-- The little-endian words of a byte sequence, padded with zero bytes to a multiple of 4 (R13, R106). -/
def wordsOfBytes : List Byte → List Word
  | [] => []
  | [a] => [BitVec.ofNat 32 (leValue [a])]
  | [a, b] => [BitVec.ofNat 32 (leValue [a, b])]
  | [a, b, c] => [BitVec.ofNat 32 (leValue [a, b, c])]
  | a :: b :: c :: d :: rest => BitVec.ofNat 32 (leValue [a, b, c, d]) :: wordsOfBytes rest

/-- Writes of consecutive words from a byte offset, in order. -/
def wrWords (offset : Nat) : List Word → List HostOp
  | [] => []
  | w :: ws => wrOff offset w :: wrWords (offset + 4) ws

/-- `wrbytes NAME, <hex bytes>` (R106), NAME given by its offset. -/
def wrbytes (offset : Nat) (bs : List Byte) : List HostOp := wrWords offset (wordsOfBytes bs)

/-- `rdbytes NAME, n` (R107): ceil(n/4) reads, in order. -/
def rdbytes (offset n : Nat) : List HostOp := (List.range ((n + 3) / 4)).map fun i => rdOff (offset + 4 * i)

/-- The bytes of a word in the order of the byte view (R14). -/
def wordBytes (w : Word) : List Byte := [wordByte w 0, wordByte w 1, wordByte w 2, wordByte w 3]

/-- What `rdbytes NAME, n` denotes (R107): the bytes `byte(NAME, 0 .. n-1)` of the values its ceil(n/4) reads returned,
from the host's log, newest first, as it stands right after them. -/
def rdbytesValue (n : Nat) (log : List Word) : List Byte :=
  ((log.take ((n + 3) / 4)).reverse.flatMap wordBytes).take n

/-- `clr` (R108). -/
def clr : HostOp := wrOff 0x010 0x00008006#32

/-- The pieces of `size` items of a list, the last one shorter; the first argument bounds their number. -/
def pieces {α : Type} (size : Nat) : Nat → List α → List (List α)
  | 0, _ => []
  | _ + 1, [] => []
  | n + 1, x :: xs => (x :: xs).take size :: pieces size n ((x :: xs).drop size)

/-- Boot (R265, items 2 to 4): soft reset, identify the block, choose whether completion raises `irq`. -/
def bootProgram (interrupts : Bool) : List HostOp :=
  [wrOff 0x00C 2, rdOff 0x000, rdOff 0x004, rdOff 0x008] ++ (if interrupts then [wrOff 0x00C 1] else [])

/-- One chunk of a request (R159): stage up to 64 bytes, XOR them, read them back. -/
def xorChunk (chunk : List Byte) : List HostOp :=
  wrbytes 0x0C0 chunk ++ run (.cXor chunk.length false) ++ rdbytes 0x100 chunk.length

/-- `encrypt(data)` on the cipher object (R159): C_START, then 64-byte chunks. -/
def encryptProgram (data : List Byte) : List HostOp :=
  run .cStart ++ ((pieces 64 data.length data).map xorChunk).flatten

/-- One block of a message (R209). -/
def foldPiece (b : List Byte) : List HostOp := wrbytes 0x0C0 b ++ run (.pBlock b.length)

/-- `compute(message)` (R209). -/
def computeProgram (m : List Byte) : List HostOp :=
  run .pStart ++ ((pieces 16 m.length m).map foldPiece).flatten ++ run .pFinal ++ rdbytes 0x1E0 16

/-- The `len` a host puts in TAGCMP for a supplied tag of n bytes (R207): n, or 0 when n does not fit the field. -/
def tagcmpLength (n : Nat) : Nat := if n ≤ 127 then n else 0

/-- `verify(message, tag)` (R210), for a supplied tag of any length. -/
def verifyProgram (m t : List Byte) : List HostOp :=
  if t.length ≠ 16 then run (.tagcmp (tagcmpLength t.length))
  else wrbytes 0x1F0 t ++ computeProgram m ++ run (.tagcmp 16)

end Sys2Proof.Machine
end

