-- ==== Sys2Proof/Machine/Reference.lean ====
section
/-!
DEFINITION. The message-level functions the command sequences are held to: keystream, XKS, encrypt (spec/43_cipher.md
R154, R155) and tag, verify (spec/45_auth.md R206). No command calls them.
-/

namespace Sys2Proof.Machine

/-- Byte `k` of the keystream (R154): byte k mod 64 of the block of counter c0 + k div 64, modulo 2^32. -/
def keystreamByte (K : Vector Word 8) (N12 : Vector Word 3) (c0 : Word) (k : Nat) : Byte :=
  byteOf (block K (c0 + BitVec.ofNat 32 (k / 64)) N12) (k % 64)

/-- `keystream(K, N12, c0, n)` (R154). -/
def keystream (K : Vector Word 8) (N12 : Vector Word 3) (c0 : Word) (n : Nat) : List Byte :=
  (List.range n).map (keystreamByte K N12 c0)

/-- `XKS(key, nonce, c0, n)` (R155), and its raw-mode counterpart (R151). -/
def xks (raw : Bool) (K : Vector Word 8) (N : Vector Word 6) (c0 : Word) (n : Nat) : List Byte :=
  keystream (streamKey raw K N) (streamNonce raw N) c0 n

/-- `encrypt(data)` and `decrypt(data)` (R155): the byte-wise XOR. -/
def encrypt (raw : Bool) (K : Vector Word 8) (N : Vector Word 6) (c0 : Word) (data : List Byte) : List Byte :=
  List.zipWith (fun d k => d ^^^ k) data (xks raw K N c0 data.length)

/-- The accumulator after the first `q` full 16-byte blocks of a message (R206). -/
def foldFull (v : PolyVariant) (r : Nat) (m : List Byte) : Nat → Nat
  | 0 => 0
  | q + 1 => fold r (foldFull v r m q) (blockValue v ((m.drop (16 * q)).take 16))

/-- The accumulator after the whole message, the final-block rule applied (R204, R206). -/
def foldMessage (v : PolyVariant) (r : Nat) (m : List Byte) : Nat :=
  let q := m.length / 16
  let h := foldFull v r m q
  if m.length % 16 > 0 then fold r h (blockValue v (m.drop (16 * q)))
  else match v with
    | .docLiteral => fold r h (2 ^ 127)
    | .rfc8439 => h

/-- The tag as an integer, for a clamped multiplier and a pad (R206). -/
def tagValue (v : PolyVariant) (r s : Nat) (m : List Byte) : Nat := (foldMessage v r m + s) % 2 ^ 128

/-- `tag(k, m)` (R206). -/
def tagOf (v : PolyVariant) (k m : List Byte) : List Byte :=
  leBytes 16 (tagValue v (leValue (clamp v (k.take 16))) (leValue ((k.drop 16).take 16)) m)

/-- `verify(k, m, t)` (R206). -/
def verify (v : PolyVariant) (k m t : List Byte) : Bool :=
  if t.length ≠ 16 then false else ctEq (tagOf v k m) t

end Sys2Proof.Machine
end

