-- ==== Sys2Proof/Safety.lean ====
section
/-!
DEFINITION. What a safe state is, in the terms the statements use: the invariants the spec's rules maintain
(spec/10_state.md R44, R47, R60; spec/43_cipher.md R157, R158; spec/45_auth.md R197, R205), the tables a statement holds
every command to (spec/60_exceptions.md R236, R238; spec/10_state.md R58), and sequences of commands.
-/

namespace Sys2Proof.Machine

/-- R60: the object state invariants. -/
abbrev ObjectInv (s : State) : Prop :=
  (s.cstream = true → s.cvalid = true) ∧
  (s.pphase ≠ .idle → s.avalid = true) ∧
  (s.tvalid = true → s.avalid = true ∧ s.pphase = .done) ∧
  (s.eq = true → s.tvalid = true) ∧
  s.kpos.toNat ≤ 64

/-- R232, R233, R237: no completion is reported while a command is in flight, and `ERR` is set exactly when `ERRCODE`
is not 0. -/
abbrev LifecycleInv (s : State) : Prop :=
  (s.busy = true → s.done = false ∧ s.err = false) ∧ (s.err = true ↔ s.errcode ≠ .none)

/-- R44, R47: the accumulator and the field result are canonical residues. -/
abbrev ReducedInv (s : State) : Prop := s.h.toNat < fieldPrime ∧ s.fr.toNat < fieldPrime

/-- R157, R158: a started stream's subkey and nonce are those of the cipher object, `KPOS` is at most 64, and while
unused keystream is held `KS` is the block of the counter before `BCTR`. -/
abbrev StreamInv (s : State) : Prop :=
  s.cstream = true →
    s.sk = streamKey s.craw s.ckey s.cnonce ∧ s.n12 = streamNonce s.craw s.cnonce ∧ s.kpos.toNat ≤ 64 ∧
    (s.kpos.toNat < 64 → s.ks = block s.sk (s.bctr - 1) s.n12)

/-- R205: `TVALID` holds exactly in phase `DONE`, and a valid tag is the accumulator plus the pad modulo 2^128. -/
abbrev TagInv (s : State) : Prop :=
  (s.tvalid = true ↔ s.pphase = .done) ∧ (s.tvalid = true → s.tag.toNat = (s.h.toNat + s.pad.toNat) % 2 ^ 128)

/-- R197: the multiplier of an authenticator object is clamped, in either variant. -/
abbrev ClampInv (s : State) : Prop :=
  s.avalid = true →
    match s.variant with
    | .rfc8439 => s.r &&& 0x0FFFFFFC0FFFFFFC0FFFFFFC0FFFFFFF#128 = s.r
    | .docLiteral =>
      (s.r &&& 0x0FFFFFFF0FFFFFFF0FFFFFFF0FFFFFFF#128) ||| 0x04000000040000000400000004000000#128 = s.r

/-- What R23 says every word of the window reads after reset: `ID`, `VERSION`, `CAP`, and 0 everywhere else. -/
def resetWord (v : PolyVariant) (idx : BitVec 8) : Word :=
  if idx = 0 then 0x50324358#32 else if idx = 1 then 1 else if idx = 2 then v.cap else 0

/-- The checks of R238's table, first to last, each with the code it reports; `E_OPC` is the decoder's. -/
def checks (i : Instr) (s : State) : List (Bool × ErrCode) :=
  match i with
  | .nop => []
  | .qr _ _ _ _ => []
  | .colround => []
  | .diaground => []
  | .doubleround => []
  | .perm => []
  | .permff => []
  | .hchacha => []
  | .cInit klen nlen raw => [(klen != 32 || nlen != (if raw then 12 else 24), .size)]
  | .cStart => [(!s.cvalid, .noInit)]
  | .cXor len _ => [(decide (64 < len), .len), (!s.cvalid, .noInit), (!s.cstream, .seq)]
  | .fadd => []
  | .fmul => []
  | .pInit klen => [(klen != 32, .size)]
  | .pStart => [(!s.avalid, .noInit)]
  | .pBlock len => [(decide (len = 0 ∨ 16 < len), .len), (!s.avalid, .noInit), (s.pphase != .active, .seq)]
  | .pFinal => [(!s.avalid, .noInit), (s.pphase == .idle || s.pphase == .done, .seq)]
  | .tagcmp len => [(len == 16 && !s.tvalid, .seq)]

/-- The first check that fails (R238), or no error. -/
def firstFailing : List (Bool × ErrCode) → ErrCode
  | [] => .none
  | (failed, code) :: rest => if failed then code else firstFailing rest

/-- The assignments a rule makes before its raise (R236): C_INIT, P_INIT and TAGCMP clear object flags, every other
command nothing. -/
def beforeRaise (i : Instr) (s : State) : State :=
  match i with
  | .cInit _ _ _ => { s with cvalid := false, cstream := false }
  | .pInit _ => { s with pphase := .idle, tvalid := false, eq := false, avalid := false }
  | .tagcmp _ => { s with eq := false }
  | _ => s

/-- The permutation commands (R130). -/
def isPermutation : Instr → Bool
  | .qr _ _ _ _ => true
  | .colround => true
  | .diaground => true
  | .doubleround => true
  | .perm => true
  | .permff => true
  | _ => false

/-- The window's registers a command may write besides `STATUS` (R58 and each command's rule). -/
def mayWrite (i : Instr) (reg : Reg) : Bool :=
  match i, reg with
  | _, .status => true
  | .qr _ _ _ _, .st _ => true
  | .colround, .st _ => true
  | .diaground, .st _ => true
  | .doubleround, .st _ => true
  | .perm, .st _ => true
  | .permff, .st _ => true
  | .hchacha, .hout _ => true
  | .cInit _ _ _, .ckey _ => true
  | .cInit _ _ _, .cnonce _ => true
  | .cInit _ _ _, .cctr0 => true
  | .cStart, .sk _ => true
  | .cStart, .n12 _ => true
  | .cStart, .bctr => true
  | .cStart, .kpos => true
  | .cXor _ _, .dout _ => true
  | .cXor _ _, .ks _ => true
  | .cXor _ _, .bctr => true
  | .cXor _ _, .kpos => true
  | .fadd, .fr _ => true
  | .fmul, .fr _ => true
  | .pInit _, .r _ => true
  | .pInit _, .pad _ => true
  | .pInit _, .h _ => true
  | .pStart, .h _ => true
  | .pBlock _, .h _ => true
  | .pFinal, .h _ => true
  | .pFinal, .tag _ => true
  | _, _ => false

/-- The registers a host write stores into with no side effect (R58, R65): the RW data registers. -/
def storesValue : Reg → Bool
  | .ctrin => true
  | .keyin _ => true
  | .noncein _ => true
  | .st _ => true
  | .din _ => true
  | .pkeyin _ => true
  | .fa _ => true
  | .fb _ => true
  | .tagin _ => true
  | _ => false

/-- What an RW data register holds after a write of v: word 4 of a field operand keeps bits [1:0] (R42, R43). -/
def storedWord : Reg → Word → Word
  | .fa i, v => if i = 4 then v &&& 3 else v
  | .fb i, v => if i = 4 then v &&& 3 else v
  | _, v => v

/-- The registers a host write leaves alone (R23's RO rows, R26). -/
def ignoresWrite : Reg → Bool
  | .id => true
  | .version => true
  | .cap => true
  | .bctr => true
  | .kpos => true
  | .dout _ => true
  | .hout _ => true
  | .fr _ => true
  | .tag _ => true
  | .h _ => true
  | .r _ => true
  | .pad _ => true
  | .sk _ => true
  | .n12 _ => true
  | .ks _ => true
  | .ckey _ => true
  | .cnonce _ => true
  | .cctr0 => true
  | .reserved => true
  | _ => false

/-- A legal word, format by format (R92 to R95, R97, R98): its opcode is in the table and every bit its format marks
reserved or "must be 0" is 0. -/
def legalWord (w : Word) : Prop :=
  let opc := w.toNat % 2 ^ 8
  (opc ∈ [0x00, 0x02, 0x03, 0x04, 0x05, 0x06, 0x10, 0x21, 0x30, 0x31, 0x41, 0x43] ∧ w.toNat / 2 ^ 8 = 0) ∨
  (opc = 0x01 ∧ w.toNat / 2 ^ 24 = 0) ∨
  (opc = 0x20 ∧ w.toNat / 2 ^ 25 = 0) ∨
  ((opc = 0x22 ∨ opc = 0x40) ∧ w.toNat / 2 ^ 16 = 0) ∨
  ((opc = 0x42 ∨ opc = 0x44) ∧ w.toNat / 2 ^ 15 = 0)

/-- An operation that resets a block out of reset: `rst_n` driven low (R261) or a soft reset write (R262). -/
def isReset : HostOp → Bool
  | .rstN level => !level
  | .wr idx v => isSoftReset (regAt idx) v
  | .rd _ => false
  | .wait => false
  | .waitIrq => false

/-- No operation of the host's program resets the block. -/
abbrev noReset (ops : List HostOp) : Prop := ∀ op ∈ ops, isReset op = false

/-- The host is at an operation of its program, with `rst_n` = 1. -/
abbrev HostAt (s : State) (op : HostOp) : Prop := s.rstN = true ∧ s.program[s.hostPos]? = some op

/-- The next step is a reset: `rst_n` is low, or it is the host's turn and its operation is a reset (R261, R262). -/
abbrev ResetNext (s : State) : Prop :=
  s.rstN = false ∨ (engineTurn s = false ∧ ∃ op, s.program[s.hostPos]? = some op ∧ isReset op = true)

/-- The reserved offsets of the window, as R26 lists them. -/
abbrev reservedOffset (off : Nat) : Prop :=
  off % 4 = 0 ∧
  ((0x024 ≤ off ∧ off ≤ 0x03C) ∨ (0x078 ≤ off ∧ off ≤ 0x07C) ∨ (0x194 ≤ off ∧ off ≤ 0x19C) ∨
    (0x1B4 ≤ off ∧ off ≤ 0x1BC) ∨ (0x1D4 ≤ off ∧ off ≤ 0x1DC) ∨ (0x214 ≤ off ∧ off ≤ 0x21C) ∨
    (0x26C ≤ off ∧ off ≤ 0x27C) ∨ (0x2FC ≤ off ∧ off ≤ 0x3FC))

/-- The value of `STATUS` from R30's bit numbers, R237's codes and R199's phases. -/
def statusValue (s : State) : Nat :=
  s.busy.toNat + s.done.toNat * 2 ^ 1 + s.err.toNat * 2 ^ 2 + s.eq.toNat * 2 ^ 3 +
  (match s.errcode with | .none => 0 | .size => 1 | .noInit => 2 | .seq => 3 | .len => 4 | .opc => 5) * 2 ^ 4 +
  s.cvalid.toNat * 2 ^ 8 + s.cstream.toNat * 2 ^ 9 + s.craw.toNat * 2 ^ 10 + s.avalid.toNat * 2 ^ 11 +
  (match s.pphase with | .idle => 0 | .active => 1 | .tailed => 2 | .done => 3) * 2 ^ 12 +
  s.tvalid.toNat * 2 ^ 14 + s.wdrop.toNat * 2 ^ 15

/-- The 128-bit integer of four consecutive words of `PKEYIN`, least significant word first (R24). -/
def keyHalf (A : Vector Word 8) (start : Fin 5) : BitVec 128 :=
  A[start.val + 3] ++ A[start.val + 2] ++ A[start.val + 1] ++ A[start.val]

/-- The 128-bit integer of the first four words of a data buffer (R24). -/
def frontValue (A : Vector Word 16) : Nat := (A[3] ++ A[2] ++ A[1] ++ A[0] : BitVec 128).toNat

/-- `n(b, L)` of R198 as a function of the integer of the block's 16 byte positions and L. -/
def encodedBlock (v : PolyVariant) (value len : Nat) : Nat :=
  match v with
  | .rfc8439 => value % 2 ^ (8 * len) + 2 ^ (8 * len)
  | .docLiteral => if len = 16 then value else value % 2 ^ (8 * len) + 2 ^ 127

/-- The quarter round on four words (R121), for four distinct indices. -/
def quarter (a b c d : Word) : Word × Word × Word × Word :=
  let a := a + b
  let d := (d ^^^ a).rotateLeft 16
  let c := c + d
  let b := (b ^^^ c).rotateLeft 12
  let a := a + b
  let d := (d ^^^ a).rotateLeft 8
  let c := c + d
  let b := (b ^^^ c).rotateLeft 7
  (a, b, c, d)

/-- A 16-word array as a function, for R121's statements one assignment at a time. -/
abbrev Lanes := Fin 16 → Word

/-- `X[a] <- X[a] +32 X[b]` (R121). -/
def addInto (X : Lanes) (a b : Fin 16) : Lanes := Function.update X a (X a + X b)

/-- `X[d] <- rotl32(X[d] ^ X[a], n)` (R121). -/
def xorRotInto (X : Lanes) (d a : Fin 16) (n : Nat) : Lanes := Function.update X d ((X d ^^^ X a).rotateLeft n)

/-- The eight assignments of R121 in order, on the one array, whatever the indices. -/
def quarterInOrder (X : Lanes) (a b c d : Fin 16) : Lanes :=
  let X := xorRotInto (addInto X a b) d a 16
  let X := xorRotInto (addInto X c d) b c 12
  let X := xorRotInto (addInto X a b) d a 8
  xorRotInto (addInto X c d) b c 7

/-- Commands run one after another, each from the state the one before left (R231). -/
def execAll : List Instr → State → Host.Outcome State Fault Refusal
  | [], s => .next s
  | i :: rest, s =>
    match exec i s with
    | .next t => execAll rest t
    | .fault f => .fault f
    | .refused r => .refused r

/-- One C_XOR of a request (R159): the 64 staged input bytes, the byte count and the zero-input flag. -/
structure Chunk where
  input : Vector Word 16
  len : Nat
  z : Bool

/-- The bytes a chunk sends into the pipeline (R158). -/
def Chunk.bytes (c : Chunk) : List Byte := if c.z then List.replicate c.len 0 else bytesFrom c.input 0 c.len

/-- The output bytes of a sequence of C_XOR commands, each after the host staged its input (R159); none if one of
them does not end in a next state without error. -/
def xorStream : List Chunk → State → Option (List Byte)
  | [], _ => some []
  | c :: rest, s =>
    match exec (.cXor c.len c.z) { s with din := c.input } with
    | .next t =>
      if t.errcode = .none then (xorStream rest t).map (bytesFrom t.dout 0 c.len ++ ·) else none
    | .fault _ => none
    | .refused _ => none

/-- A data buffer that holds a block's bytes at its start (R38, R106): a block of at most 16 bytes in `DIN`. -/
def stage (b : List Byte) : Vector Word 16 :=
  Vector.ofFn fun i => BitVec.ofNat 32 (leValue ((b.drop (4 * i.val)).take 4))

/-- The P_BLOCK commands of a message's blocks, each after the host staged it (R209). -/
def foldPieces : List (List Byte) → State → Host.Outcome State Fault Refusal
  | [], s => .next s
  | b :: rest, s =>
    match exec (.pBlock b.length) { s with din := stage b } with
    | .next t => foldPieces rest t
    | .fault f => .fault f
    | .refused r => .refused r

/-- `compute(message)` as commands (R209): P_START, the blocks, P_FINAL. -/
def computeTag (blocks : List (List Byte)) (s : State) : Host.Outcome State Fault Refusal :=
  match exec .pStart s with
  | .next t =>
    match foldPieces blocks t with
    | .next u => exec .pFinal u
    | .fault f => .fault f
    | .refused r => .refused r
  | .fault f => .fault f
  | .refused r => .refused r

end Sys2Proof.Machine
end

