-- ==== Sys2Proof/Certificates/Slice0/Obligations.lean ====
section
/-!
DEFINITION. The statements for the provers, from the numbered rules of spec/. Each docstring names the rule it
formalises; OBLIGATIONS.json lists them in the same order.
-/

open Sys2Proof Sys2Proof.Machine

/-! ## Encoding -/

/-- R97, R103: decoding `enc(X)` gives X back, for every well-formed command with every operand its fields admit. -/
def Obligations.DecodeOfEncode : Prop := ∀ i : Instr, i.wellFormed = true → decode (encode i) = .ok i

/-- R97, R100: a word that decodes is the encoding of the command it decodes to, and that command is well formed. -/
def Obligations.EncodeOfDecode : Prop :=
  ∀ (w : Word) (i : Instr), decode w = .ok i → i.wellFormed = true ∧ encode i = w

/-- R97: "at most one row matches any word". -/
def Obligations.AtMostOneRowMatches : Prop := ∀ w : Word, (opcodeMap.filter (·.selects w)).length ≤ 1

/-- R98, R234: a word is legal exactly when its opcode is assigned and no must-be-0 bit is set; any other word
completes with `E_OPC` and has no other effect. -/
def Obligations.IllegalWordsCompleteWithEOpc : Prop :=
  ∀ s : State,
    (legalWord s.pending ↔ ∃ i, decode s.pending = .ok i) ∧
    (¬ legalWord s.pending →
      engineStep s = .next { s with busy := false, done := true, err := true, errcode := .opc })

/-- Words written out from R97's patterns, one or more per family, decode to the commands they stand for. -/
def Obligations.PatternWordsDecode : Prop :=
  decode 0x00D87201#32 = .ok (.qr 2 7 8 13) ∧
  decode 0x00000010#32 = .ok .hchacha ∧
  decode 0x010C2020#32 = .ok (.cInit 32 12 true) ∧
  decode 0x0000C022#32 = .ok (.cXor 64 true) ∧
  decode 0x00000031#32 = .ok .fmul ∧
  decode 0x00001042#32 = .ok (.pBlock 16) ∧
  decode 0x00000F44#32 = .ok (.tagcmp 15)

/-! ## The command lifecycle -/

/-- R232: acceptance captures the word, sets `BUSY`, clears `DONE`, `ERR` and `ERRCODE` and changes no other state
(the model's own delay and count of draws, logs 3 and 4, aside). -/
def Obligations.AcceptanceOfACommand : Prop :=
  ∀ (s : State) (v : Word), s.rstN = true → s.busy = false →
    hostWrite cmdIdx v s =
      { s with
        pending := v
        busy := true
        done := false
        err := false
        errcode := .none
        delay := (hostWrite cmdIdx v s).delay
        draws := (hostWrite cmdIdx v s).draws }

/-- R233, R234: when the engine's turn comes and `PENDING` decodes, the step is that command's exec, with nothing around
it; when `PENDING` is illegal, the step completes with `E_OPC` and changes nothing else. When the turn comes is the
model's choice within R239 (log 4). -/
def Obligations.StepRunsTheDecodedCommand : Prop :=
  ∀ s : State, s.rstN = true → s.busy = true → (s.delay = 0 ∨ s.program[s.hostPos]? = none) →
    (∀ i : Instr, decode s.pending = .ok i → step s = exec i s) ∧
    (¬ legalWord s.pending →
      step s = .next { s with busy := false, done := true, err := true, errcode := .opc })

/-- R74, R233, R240, R242: no step faults or is refused, in any state; and no step changes the build's variant (R6,
R262). -/
def Obligations.EveryStepAnswersNext : Prop := ∀ s : State, ∃ t, step s = .next t ∧ t.variant = s.variant

/-- R233: the engine step is weakly fair. The bound is the model's choice (log 4): with the delay, a free value drawn
at acceptance, at most that many host turns pass before no command is in flight, whatever the host does. -/
def Obligations.AcceptedCommandCompletes : Prop :=
  ∀ s : State, s.busy = true →
    ∃ k t, k ≤ s.delay + 1 ∧ Host.Core.run Sys2Proof.core k s = .next t ∧ t.busy = false

/-- R71, R75, R271: whatever the host reads and writes while a command is in flight, short of a reset, the command
runs on the inputs of its acceptance: the result is exec on the state at acceptance, but for `WDROP`, the host's own
fields and the model's own; the bound on the steps is the model's choice (log 4). -/
def Obligations.CommandRunsOnItsAcceptedInputs : Prop :=
  ∀ (s : State) (i : Instr), s.rstN = true → s.busy = true → decode s.pending = .ok i → noReset s.program →
    ∃ k u, k ≤ s.delay + 1 ∧ Host.Core.run Sys2Proof.core k s = .next u ∧
      exec i
        { s with
          wdrop := u.wdrop
          hostPos := u.hostPos
          readLog := u.readLog
          delay := u.delay
          draws := u.draws } = .next u

/-- R236, R238: a command whose checks fail completes with the first failing check's code; its state changes are the
assignments its rule makes before the raise, and the completion. -/
def Obligations.ErrorCompletionIsPrecise : Prop :=
  ∀ (i : Instr) (s : State), firstFailing (checks i s) ≠ .none →
    exec i s =
      .next { beforeRaise i s with
        busy := false, done := true, err := true, errcode := firstFailing (checks i s) }

/-- R235: a command none of whose checks fails completes without error; from a state an acceptance left, `ERR` = 0 and
`ERRCODE` = 0. -/
def Obligations.SuccessfulCompletionReportsNoError : Prop :=
  ∀ (i : Instr) (s : State), firstFailing (checks i s) = .none → s.err = false → s.errcode = .none →
    ∃ t, exec i s = .next t ∧ t.busy = false ∧ t.done = true ∧ t.err = false ∧ t.errcode = .none

/-- R58: every word of the window that is not a register the command writes reads after it as before it. -/
def Obligations.CommandsWriteOnlyTheirRegisters : Prop :=
  ∀ (i : Instr) (s t : State) (idx : BitVec 8), exec i s = .next t → mayWrite i (regAt idx) = false →
    memRead t idx = memRead s idx

/-- R37 and R58: no command but the permutation commands reads or writes `S`. -/
def Obligations.OnlyPermutationCommandsUseS : Prop :=
  ∀ (i : Instr) (s t : State) (X : Vector Word 16), isPermutation i = false → exec i s = .next t →
    t.st = s.st ∧ exec i { s with st := X } = .next { t with st := X }

/-- R53, R54, R55: the cipher object's key, nonce and counter change only by a reset, which leaves every word of the
window at its reset value, or by the engine step of a C_INIT, which copies the staging registers. -/
def Obligations.CipherObjectIsImmutable : Prop :=
  ∀ s t : State, step s = .next t →
    (t.ckey = s.ckey ∧ t.cnonce = s.cnonce ∧ t.cctr0 = s.cctr0) ∨
    (ResetNext s ∧ t.ckey = Vector.replicate 8 0 ∧ t.cnonce = Vector.replicate 6 0 ∧ t.cctr0 = 0 ∧
      t.cvalid = false ∧ ∀ idx, memRead t idx = resetWord s.variant idx) ∨
    (s.rstN = true ∧ engineTurn s = true ∧ (∃ klen nlen raw, decode s.pending = .ok (.cInit klen nlen raw)) ∧
      t.ckey = s.keyin ∧ t.cnonce = s.noncein ∧ t.cctr0 = s.ctrin ∧ t.cvalid = true ∧ t.cstream = false)

/-! ## The register window -/

/-- R23, R26, R30, R64: what a read of every listed offset returns, register by register, `STATUS` field by field at
R30's bit numbers; and every reserved offset reads 0. -/
def Obligations.WindowMapReads : Prop :=
  ∀ s : State,
    memRead s (idxOf 0x000) = 0x50324358#32 ∧ memRead s (idxOf 0x004) = 1 ∧
    memRead s (idxOf 0x008) = (match s.variant with | .rfc8439 => 0 | .docLiteral => 1) ∧
    memRead s (idxOf 0x00C) = (if s.ie then 1 else 0) ∧ (memRead s (idxOf 0x010)).toNat = statusValue s ∧
    memRead s (idxOf 0x014) = 0 ∧ memRead s (idxOf 0x018) = s.ctrin ∧ memRead s (idxOf 0x01C) = s.bctr ∧
    (memRead s (idxOf 0x020)).toNat = s.kpos.toNat ∧
    (∀ i : Fin 8, memRead s (idxOf (0x040 + 4 * i)) = s.keyin[i]) ∧
    (∀ i : Fin 6, memRead s (idxOf (0x060 + 4 * i)) = s.noncein[i]) ∧
    (∀ i : Fin 16, memRead s (idxOf (0x080 + 4 * i)) = s.st[i]) ∧
    (∀ i : Fin 16, memRead s (idxOf (0x0C0 + 4 * i)) = s.din[i]) ∧
    (∀ i : Fin 16, memRead s (idxOf (0x100 + 4 * i)) = s.dout[i]) ∧
    (∀ i : Fin 8, memRead s (idxOf (0x140 + 4 * i)) = s.hout[i]) ∧
    (∀ i : Fin 8, memRead s (idxOf (0x160 + 4 * i)) = s.pkeyin[i]) ∧
    (∀ i : Fin 5, (memRead s (idxOf (0x180 + 4 * i))).toNat = s.fa.toNat / 2 ^ (32 * i.val) % 2 ^ 32) ∧
    (∀ i : Fin 5, (memRead s (idxOf (0x1A0 + 4 * i))).toNat = s.fb.toNat / 2 ^ (32 * i.val) % 2 ^ 32) ∧
    (∀ i : Fin 5, (memRead s (idxOf (0x1C0 + 4 * i))).toNat = s.fr.toNat / 2 ^ (32 * i.val) % 2 ^ 32) ∧
    (∀ i : Fin 4, (memRead s (idxOf (0x1E0 + 4 * i))).toNat = s.tag.toNat / 2 ^ (32 * i.val) % 2 ^ 32) ∧
    (∀ i : Fin 4, (memRead s (idxOf (0x1F0 + 4 * i))).toNat = s.tagin.toNat / 2 ^ (32 * i.val) % 2 ^ 32) ∧
    (∀ i : Fin 5, (memRead s (idxOf (0x200 + 4 * i))).toNat = s.h.toNat / 2 ^ (32 * i.val) % 2 ^ 32) ∧
    (∀ i : Fin 4, (memRead s (idxOf (0x220 + 4 * i))).toNat = s.r.toNat / 2 ^ (32 * i.val) % 2 ^ 32) ∧
    (∀ i : Fin 4, (memRead s (idxOf (0x230 + 4 * i))).toNat = s.pad.toNat / 2 ^ (32 * i.val) % 2 ^ 32) ∧
    (∀ i : Fin 8, memRead s (idxOf (0x240 + 4 * i)) = s.sk[i]) ∧
    (∀ i : Fin 3, memRead s (idxOf (0x260 + 4 * i)) = s.n12[i]) ∧
    (∀ i : Fin 16, memRead s (idxOf (0x280 + 4 * i)) = s.ks[i]) ∧
    (∀ i : Fin 8, memRead s (idxOf (0x2C0 + 4 * i)) = s.ckey[i]) ∧
    (∀ i : Fin 6, memRead s (idxOf (0x2E0 + 4 * i)) = s.cnonce[i]) ∧ memRead s (idxOf 0x2F8) = s.cctr0 ∧
    (∀ off, reservedOffset off → memRead s (idxOf off) = 0)

/-- R64, R67: a read returns the register's value while idle; while busy, that of `ID`, `VERSION`, `CAP`, `CTRL` and
`STATUS` (bit 0 of `STATUS` then reading 1), and a draw for any other offset. No read changes state, the count of
draws aside. -/
def Obligations.ReadsHaveNoSideEffect : Prop :=
  ∀ (s : State) (idx : BitVec 8), s.rstN = true →
    (s.busy = false → hostRead idx s = (memRead s idx, s)) ∧
    (s.busy = true → idx.toNat ≤ 4 → hostRead idx s = (memRead s idx, s)) ∧
    (s.busy = true → 4 < idx.toNat →
      hostRead idx s = (Config.freeWord s.draws, { s with draws := s.draws + 1 })) ∧
    (s.busy = true → (memRead s statusIdx).getLsbD 0 = true)

/-- R42, R43, R65, R66: an idle write to an RW data register stores v (word 4 of a field operand keeps bits [1:0]),
and every other word of the window reads as before. -/
def Obligations.IdleWriteStoresOneWord : Prop :=
  ∀ (s : State) (idx : BitVec 8) (v : Word), s.rstN = true → s.busy = false → storesValue (regAt idx) = true →
    memRead (hostWrite idx v s) idx = storedWord (regAt idx) v ∧
    ∀ j, j ≠ idx → memRead (hostWrite idx v s) j = memRead s j

/-- R23, R26, R65: an idle write to an RO or reserved offset changes nothing. -/
def Obligations.ReadOnlyOffsetsIgnoreWrites : Prop :=
  ∀ (s : State) (idx : BitVec 8) (v : Word), s.rstN = true → s.busy = false → ignoresWrite (regAt idx) = true →
    hostWrite idx v s = s

/-- R30, R65: an idle write to `STATUS` clears each W1C bit written 1, `ERRCODE` with `ERR`, and changes nothing else.
-/
def Obligations.StatusWriteOneToClear : Prop :=
  ∀ (s : State) (v : Word), s.rstN = true → s.busy = false →
    statusWord (hostWrite statusIdx v s) =
      statusWord s &&& ~~~(v &&& 0x00008006#32) &&& (if v.getLsbD 2 then ~~~0x000000F0#32 else ~~~0#32) ∧
    hostWrite statusIdx v s =
      { s with
        done := (hostWrite statusIdx v s).done
        err := (hostWrite statusIdx v s).err
        errcode := (hostWrite statusIdx v s).errcode
        wdrop := (hostWrite statusIdx v s).wdrop }

/-- R29: an idle write to `CTRL` with bit 1 = 0 sets `IE` to bit 0 and changes nothing else; `CTRL` then reads that
bit. -/
def Obligations.CtrlWriteSetsInterruptEnable : Prop :=
  ∀ (s : State) (v : Word), s.rstN = true → s.busy = false → v.getLsbD 1 = false →
    hostWrite ctrlIdx v s = { s with ie := v.getLsbD 0 } ∧ memRead (hostWrite ctrlIdx v s) ctrlIdx = v &&& 1

/-- R271: a write while busy is dropped, sets `WDROP` and has no other effect, but for a soft reset. -/
def Obligations.BusyWritesAreDropped : Prop :=
  ∀ (s : State) (idx : BitVec 8) (v : Word), s.rstN = true → s.busy = true →
    (¬ (idx = ctrlIdx ∧ v.getLsbD 1 = true) → hostWrite idx v s = { s with wdrop := true }) ∧
    (idx = ctrlIdx ∧ v.getLsbD 1 = true →
      (hostWrite idx v s).busy = false ∧ ∀ j, memRead (hostWrite idx v s) j = resetWord s.variant j)

/-! ## Reset and the interrupt line -/

/-- R262: a write to `CTRL` with bit 1 = 1 is a soft reset at any time, busy or not: every register of the block at its
reset value, the variant kept. `PENDING`, whose value R261 leaves unspecified, and the model's own delay (log 4) are not
spoken of. That the host's program, position and read log (log 5) and the model's count of draws (log 3) are kept is the
model's choice. -/
def Obligations.SoftResetAtAnyTime : Prop :=
  ∀ (s : State) (v : Word), s.rstN = true → v.getLsbD 1 = true →
    hostWrite ctrlIdx v s =
      { State.resetFor s.variant with
        pending := (hostWrite ctrlIdx v s).pending
        delay := (hostWrite ctrlIdx v s).delay
        program := s.program
        hostPos := s.hostPos
        readLog := s.readLog
        draws := s.draws }

/-- R23, R261: after reset every word of the window reads its reset value, and `irq` = 0. -/
def Obligations.ResetValuesOfTheWindow : Prop :=
  ∀ (v : PolyVariant) (idx : BitVec 8),
    memRead (State.resetFor v) idx = resetWord v idx ∧ irq (State.resetFor v) = false

/-- R261: while `rst_n` = 0, at the step in which it falls, with a command in flight or without, and at the step in which
it returns to 1, every register takes its reset value, no command is in flight and `irq` = 0, whatever the host does; and
an event at the pin in the host's list, which is how the model drives it (log 6), takes the pin to its level. -/
def Obligations.HeldInReset : Prop :=
  (∀ s : State, s.rstN = false →
    ∃ t, step s = .next t ∧ t.busy = false ∧ irq t = false ∧ ∀ idx, memRead t idx = resetWord s.variant idx) ∧
  (∀ s t : State, step s = .next t → s.rstN = false ∨ t.rstN = false →
    t.busy = false ∧ irq t = false ∧ ∀ idx, memRead t idx = resetWord s.variant idx) ∧
  (∀ (s : State) (level : Bool), s.program[s.hostPos]? = some (.rstN level) →
    s.rstN = false ∨ engineTurn s = false →
    ∃ t, step s = .next t ∧ t.rstN = level ∧ t.hostPos = s.hostPos + 1)

/-- R241: `irq` is 0 from acceptance to completion, and at every completion, with or without error, it is `IE`. -/
def Obligations.InterruptFollowsCompletion : Prop :=
  (∀ s : State, LifecycleInv s → s.busy = true → irq s = false) ∧
  (∀ (s : State) (v : Word), s.rstN = true → s.busy = false → irq (hostWrite cmdIdx v s) = false) ∧
  (∀ s t : State, engineStep s = .next t → irq t = s.ie)

/-! ## The host's turns -/

/-- R22, R67, R76, R104, R261, R271: one step of each host operation. While idle: a `rd` records the register's value,
a `wr` performs the write, `wait` leaves its loop, and waiting for `irq` goes on exactly when `irq` = 1. While a command
is in flight and host turns remain: a `rd` records the value of `ID`, `VERSION`, `CAP`, `CTRL` or `STATUS` and a draw for
any other offset, a `wr` is dropped and sets `WDROP` but for a soft reset, `wait` stays, and waiting for `irq` goes on
exactly when `irq` = 1. Driving `rst_n` to the 1 it has changes nothing of the block at any time. How many turns remain
(log 4), the form of a draw (log 3), the host's fields (log 5) and operations for the pin and for `irq` (logs 6 and 9)
are the model's choices. -/
def Obligations.HostTurns : Prop :=
  (∀ s : State, s.busy = false →
    (∀ idx, HostAt s (.rd idx) →
      step s = .next { s with readLog := memRead s idx :: s.readLog, hostPos := s.hostPos + 1 }) ∧
    (∀ idx v, HostAt s (.wr idx v) → step s = .next { hostWrite idx v s with hostPos := s.hostPos + 1 }) ∧
    (HostAt s .wait →
      step s = .next { s with readLog := statusWord s :: s.readLog, hostPos := s.hostPos + 1 }) ∧
    (HostAt s .waitIrq →
      step s = .next { s with hostPos := if irq s then s.hostPos + 1 else s.hostPos }) ∧
    (HostAt s (.rstN true) → step s = .next { s with hostPos := s.hostPos + 1 })) ∧
  (∀ s : State, s.busy = true → s.delay ≠ 0 →
    (∀ idx, HostAt s (.rd idx) → idx.toNat ≤ 4 →
      step s = .next { s with
        readLog := memRead s idx :: s.readLog, hostPos := s.hostPos + 1, delay := s.delay - 1 }) ∧
    (∀ idx, HostAt s (.rd idx) → 4 < idx.toNat →
      step s = .next { s with
        readLog := Config.freeWord s.draws :: s.readLog
        draws := s.draws + 1
        hostPos := s.hostPos + 1
        delay := s.delay - 1 }) ∧
    (∀ idx v, HostAt s (.wr idx v) → ¬ (idx = ctrlIdx ∧ v.getLsbD 1 = true) →
      step s = .next { s with wdrop := true, hostPos := s.hostPos + 1, delay := s.delay - 1 }) ∧
    (∀ v, HostAt s (.wr ctrlIdx v) → v.getLsbD 1 = true →
      step s = .next { hostWrite ctrlIdx v s with hostPos := s.hostPos + 1 }) ∧
    (HostAt s .wait →
      step s = .next { s with readLog := statusWord s :: s.readLog, delay := s.delay - 1 }) ∧
    (HostAt s .waitIrq →
      step s = .next { s with
        hostPos := if irq s then s.hostPos + 1 else s.hostPos, delay := s.delay - 1 }) ∧
    (HostAt s (.rstN true) → step s = .next { s with hostPos := s.hostPos + 1, delay := s.delay - 1 }))

/-- R250, R279: when the host's program has ended and no command is in flight, nothing changes; that the step then
answers the same state is the model's choice (log 15). -/
def Obligations.NothingChangesAfterTheEnd : Prop :=
  ∀ s : State, s.rstN = true → s.busy = false → s.program[s.hostPos]? = none → step s = .next s

/-! ## The permutation core -/

/-- R129: NOP completes and changes nothing else. -/
def Obligations.NopOnlyCompletes : Prop := ∀ s : State, exec .nop s = .next { s with busy := false, done := true }

/-- R121: QR runs its eight assignments in order on the one array, whatever the four indices, repeats included; words
it does not name, and all other state, are unchanged. -/
def Obligations.QuarterRoundInOrder : Prop :=
  ∀ (s : State) (a b c d : Fin 16), ∃ t,
    exec (.qr a b c d) s = .next t ∧ t = { s with st := t.st, busy := false, done := true } ∧
    ∀ k : Fin 16, t.st[k] = quarterInOrder (fun j => s.st[j]) a b c d k

/-- R122, and R127's inference that the order of the four does not matter: COLROUND is the quarter round on each of
the four columns, from the words before the command. -/
def Obligations.ColumnRoundByLanes : Prop :=
  ∀ s : State, ∃ t,
    exec .colround s = .next t ∧ t = { s with st := t.st, busy := false, done := true } ∧
    (t.st[0], t.st[4], t.st[8], t.st[12]) = quarter s.st[0] s.st[4] s.st[8] s.st[12] ∧
    (t.st[1], t.st[5], t.st[9], t.st[13]) = quarter s.st[1] s.st[5] s.st[9] s.st[13] ∧
    (t.st[2], t.st[6], t.st[10], t.st[14]) = quarter s.st[2] s.st[6] s.st[10] s.st[14] ∧
    (t.st[3], t.st[7], t.st[11], t.st[15]) = quarter s.st[3] s.st[7] s.st[11] s.st[15]

/-- R123, and R127's inference that the order of the four does not matter: DIAGROUND is the quarter round on each of
the four diagonals, from the words before the command. -/
def Obligations.DiagonalRoundByLanes : Prop :=
  ∀ s : State, ∃ t,
    exec .diaground s = .next t ∧ t = { s with st := t.st, busy := false, done := true } ∧
    (t.st[0], t.st[5], t.st[10], t.st[15]) = quarter s.st[0] s.st[5] s.st[10] s.st[15] ∧
    (t.st[1], t.st[6], t.st[11], t.st[12]) = quarter s.st[1] s.st[6] s.st[11] s.st[12] ∧
    (t.st[2], t.st[7], t.st[8], t.st[13]) = quarter s.st[2] s.st[7] s.st[8] s.st[13] ∧
    (t.st[3], t.st[4], t.st[9], t.st[14]) = quarter s.st[3] s.st[4] s.st[9] s.st[14]

/-- R124, R125: DOUBLEROUND is COLROUND then DIAGROUND, and PERM is ten DOUBLEROUNDs; all state but `S`, `BUSY` and
`DONE` is unchanged. -/
def Obligations.DoubleRoundAndPermAreSequences : Prop :=
  ∀ s : State, ∃ t u,
    exec .doubleround s = .next t ∧ execAll [.colround, .diaground] s = .next t ∧
    t = { s with st := t.st, busy := false, done := true } ∧
    exec .perm s = .next u ∧ execAll (List.replicate 10 .doubleround) s = .next u ∧
    u = { s with st := u.st, busy := false, done := true }

/-- R126: PERMFF adds the pre-round state to what PERM gives, word by word modulo 2^32. -/
def Obligations.PermffAddsThePreRoundState : Prop :=
  ∀ s : State, ∃ t u,
    exec .permff s = .next t ∧ exec .perm s = .next u ∧ t = { s with st := t.st, busy := false, done := true } ∧
    ∀ i : Fin 16, t.st[i].toNat = (u.st[i].toNat + s.st[i].toNat) % 2 ^ 32

/-- R130: the permutation commands are pure functions of `S`: two states with the same `S` give the same `S`, and no
state but `S`, `BUSY` and `DONE` changes. -/
def Obligations.PermutationCommandsArePure : Prop :=
  ∀ (i : Instr) (s₁ s₂ : State), isPermutation i = true → s₁.st = s₂.st → ∃ t₁ t₂,
    exec i s₁ = .next t₁ ∧ exec i s₂ = .next t₂ ∧ t₁.st = t₂.st ∧
    t₁ = { s₁ with st := t₁.st, busy := false, done := true }

/-- R125's inference: PERM is a bijection on 512-bit states. -/
def Obligations.PermIsABijection : Prop :=
  (∀ (s : State) (X Y : Vector Word 16) (t : State),
    exec .perm { s with st := X } = .next t → exec .perm { s with st := Y } = .next t → X = Y) ∧
  (∀ (s : State) (Z : Vector Word 16), ∃ X t, exec .perm { s with st := X } = .next t ∧ t.st = Z)

/-! ## Subkey derivation and the cipher -/

/-- R141, R142, R143: `HOUT` is words 0..3 and 12..15 of what PERM makes of SIGMA, `KEYIN` and `NONCEIN[0..3]`, no
feed-forward; all state but `HOUT`, `BUSY` and `DONE` is unchanged. -/
def Obligations.HchachaSelectsEightWords : Prop :=
  ∀ s : State, ∃ t u,
    exec .hchacha s = .next t ∧ t = { s with hout := t.hout, busy := false, done := true } ∧
    exec .perm
      { s with
        st := #v[0x61707865#32, 0x3320646E#32, 0x79622D32#32, 0x6B206574#32,
          s.keyin[0], s.keyin[1], s.keyin[2], s.keyin[3], s.keyin[4], s.keyin[5], s.keyin[6], s.keyin[7],
          s.noncein[0], s.noncein[1], s.noncein[2], s.noncein[3]] } = .next u ∧
    t.hout = #v[u.st[0], u.st[1], u.st[2], u.st[3], u.st[12], u.st[13], u.st[14], u.st[15]]

/-- R156: C_INIT with the expected lengths copies the staging registers into the object; with any other lengths it
leaves no object and reports `E_SIZE`. -/
def Obligations.CInitConstructsOrDestroys : Prop :=
  ∀ (s : State) (klen nlen : Nat) (raw : Bool),
    (klen = 32 ∧ nlen = (if raw then 12 else 24) →
      exec (.cInit klen nlen raw) s =
        .next { s with
          ckey := s.keyin, cnonce := s.noncein, cctr0 := s.ctrin, craw := raw, cvalid := true, cstream := false,
          busy := false, done := true }) ∧
    (¬ (klen = 32 ∧ nlen = (if raw then 12 else 24)) →
      exec (.cInit klen nlen raw) s =
        .next { s with
          cvalid := false, cstream := false, busy := false, done := true, err := true, errcode := .size })

/-- R151, R152, R157: C_START on an object restarts from the stored counter, with the key itself and nonce bytes 0..11
in raw mode, and otherwise with the subkey HCHACHA derives from the object and the nonce 0, CNONCE[4], CNONCE[5]. -/
def Obligations.CStartRestartsFromTheStoredCounter : Prop :=
  ∀ s : State, s.cvalid = true → ∃ t u,
    exec .cStart s = .next t ∧ exec .hchacha { s with keyin := s.ckey, noncein := s.cnonce } = .next u ∧
    t.bctr = s.cctr0 ∧ t.kpos = 64 ∧ t.cstream = true ∧
    t.sk = (if s.craw then s.ckey else u.hout) ∧
    t.n12 = (if s.craw then #v[s.cnonce[0], s.cnonce[1], s.cnonce[2]] else #v[0, s.cnonce[4], s.cnonce[5]]) ∧
    t = { s with
      sk := t.sk, n12 := t.n12, bctr := t.bctr, kpos := t.kpos, cstream := t.cstream, busy := false, done := true }

/-- R158: C_XOR of len bytes on a started stream: output byte j is the input byte (0 when z = 1) XOR the next
keystream byte, a new block being generated, and `BCTR` incremented modulo 2^32, exactly when a byte needs it; `DOUT`
bytes from len on are 0; nothing else changes. -/
def Obligations.CXorMovesBytesThroughThePipeline : Prop :=
  ∀ (s : State) (len : Nat) (z : Bool), len ≤ 64 → s.cvalid = true → s.cstream = true → s.kpos.toNat ≤ 64 → ∃ t,
    exec (.cXor len z) s = .next t ∧
    (∀ j, j < len →
      byteOf t.dout j =
        (if z then 0 else byteOf s.din j) ^^^
          (if s.kpos.toNat + j < 64 then byteOf s.ks (s.kpos.toNat + j)
           else byteOf (block s.sk s.bctr s.n12) (s.kpos.toNat + j - 64))) ∧
    (∀ j, len ≤ j → j < 64 → byteOf t.dout j = 0) ∧
    (s.kpos.toNat + len ≤ 64 → t.kpos.toNat = s.kpos.toNat + len ∧ t.bctr = s.bctr ∧ t.ks = s.ks) ∧
    (64 < s.kpos.toNat + len →
      t.kpos.toNat = s.kpos.toNat + len - 64 ∧ t.bctr.toNat = (s.bctr.toNat + 1) % 2 ^ 32 ∧
      t.ks = block s.sk s.bctr s.n12) ∧
    t = { s with dout := t.dout, ks := t.ks, bctr := t.bctr, kpos := t.kpos, busy := false, done := true }

/-- R159, the spec's own inference from R154, R157 and R158: after one C_START, C_XOR commands of any lengths give,
concatenated, the staged bytes XOR the keystream of the message-level reference R155, from the stored counter. -/
def Obligations.StreamCorrespondence : Prop :=
  ∀ (s : State) (cs : List Chunk), s.cvalid = true → s.errcode = .none → (∀ c ∈ cs, c.len ≤ 64) → ∃ t,
    exec .cStart s = .next t ∧
    xorStream cs t =
      some (List.zipWith (fun d k => d ^^^ k) (cs.map Chunk.bytes).flatten
        (xks s.craw s.ckey s.cnonce s.cctr0 (cs.map Chunk.len).sum))

/-- R160, the spec's own inference from R157 and R159: a second request on the same object, fed the output of the
first, gives the first one's input back ("encrypt(encrypt(m)) == m"), for a request of up to 64 bytes. -/
def Obligations.SecondRequestDecrypts : Prop :=
  ∀ (s : State) (len : Nat), s.cvalid = true → len ≤ 64 → ∃ t u,
    execAll [.cStart, .cXor len false] s = .next t ∧
    execAll [.cStart, .cXor len false] { t with din := t.dout } = .next u ∧
    bytesFrom u.dout 0 len = bytesFrom s.din 0 len

/-! ## Field arithmetic -/

/-- R181: FADD gives the sum modulo 2^130 - 5, whatever the operands, reduced or not. -/
def Obligations.FaddIsTheSumModP : Prop :=
  ∀ s : State, ∃ t,
    exec .fadd s = .next t ∧ t.fr.toNat = (s.fa.toNat + s.fb.toNat) % (2 ^ 130 - 5) ∧
    t = { s with fr := t.fr, busy := false, done := true }

/-- R182: FMUL gives the full product modulo 2^130 - 5, whatever the operands, reduced or not. -/
def Obligations.FmulIsTheProductModP : Prop :=
  ∀ s : State, ∃ t,
    exec .fmul s = .next t ∧ t.fr.toNat = (s.fa.toNat * s.fb.toNat) % (2 ^ 130 - 5) ∧
    t = { s with fr := t.fr, busy := false, done := true }

/-! ## The authenticator -/

/-- R196, R197, R200: P_INIT with klen = 32 takes the clamped first half of `PKEYIN` as the multiplier, in either
variant, and the second half as the pad; with any other klen it leaves no object and reports `E_SIZE`. -/
def Obligations.PInitClampsTheMultiplier : Prop :=
  ∀ s : State,
    (∃ t, exec (.pInit 32) s = .next t ∧
      t.r = (match s.variant with
        | .rfc8439 => keyHalf s.pkeyin 0 &&& 0x0FFFFFFC0FFFFFFC0FFFFFFC0FFFFFFF#128
        | .docLiteral =>
          (keyHalf s.pkeyin 0 &&& 0x0FFFFFFF0FFFFFFF0FFFFFFF0FFFFFFF#128) |||
            0x04000000040000000400000004000000#128) ∧
      t.pad = keyHalf s.pkeyin 4 ∧
      t = { s with
        r := t.r, pad := t.pad, h := 0, avalid := true, pphase := .idle, tvalid := false, eq := false,
        busy := false, done := true }) ∧
    (∀ klen, klen ≠ 32 →
      exec (.pInit klen) s =
        .next { s with
          avalid := false, pphase := .idle, tvalid := false, eq := false,
          busy := false, done := true, err := true, errcode := .size })

/-- R201: P_START on an object begins a computation in every phase. -/
def Obligations.PStartBeginsAComputation : Prop :=
  ∀ s : State, s.avalid = true →
    exec .pStart s =
      .next { s with h := 0, pphase := .active, tvalid := false, eq := false, busy := false, done := true }

/-- R198, R202, R203: P_BLOCK of 1 to 16 bytes in phase `ACTIVE` folds the block's encoded value into the accumulator,
exact before reduction, and moves to `TAILED` when the block is short; `DIN` bytes from len on do not matter. -/
def Obligations.PBlockFoldsOneBlock : Prop :=
  ∀ (s : State) (len : Nat), 1 ≤ len → len ≤ 16 → s.avalid = true → s.pphase = .active → ∃ t,
    exec (.pBlock len) s = .next t ∧
    t.h.toNat =
      ((s.h.toNat + encodedBlock s.variant (frontValue s.din) len) * s.r.toNat) % (2 ^ 130 - 5) ∧
    t.pphase = (if len < 16 then .tailed else .active) ∧
    t = { s with h := t.h, pphase := t.pphase, busy := false, done := true }

/-- R204, R205: P_FINAL in phase `ACTIVE` or `TAILED` adds the pad modulo 2^128, in DOC_LITERAL after folding 2^127
when no short block was folded. -/
def Obligations.PFinalAddsThePad : Prop :=
  ∀ s : State, s.avalid = true → s.pphase = .active ∨ s.pphase = .tailed → ∃ t,
    exec .pFinal s = .next t ∧
    t.h.toNat =
      (if s.variant = .docLiteral ∧ s.pphase = .active
       then ((s.h.toNat + 2 ^ 127) * s.r.toNat) % (2 ^ 130 - 5) else s.h.toNat) ∧
    t.tag.toNat = (t.h.toNat + s.pad.toNat) % 2 ^ 128 ∧
    t = { s with
      h := t.h, tag := t.tag, tvalid := true, pphase := .done, busy := false, done := true }

/-- R207, R208: TAGCMP of 16 bytes on a valid tag sets `EQ` exactly when all 16 bytes are equal; any other length
gives `EQ` = 0 without error. -/
def Obligations.TagcmpComparesAllBytes : Prop :=
  (∀ s : State, s.tvalid = true →
    exec (.tagcmp 16) s = .next { s with eq := decide (s.tag = s.tagin), busy := false, done := true }) ∧
  (∀ (s : State) (len : Nat), len ≠ 16 →
    exec (.tagcmp len) s = .next { s with eq := false, busy := false, done := true })

/-- R206 and R209, the spec's own inferences from R196 to R205: P_INIT, P_START, one P_BLOCK per 16-byte piece of the
message and P_FINAL leave in `TAG` the tag the message-level reference gives for the staged key, for every message, in
either variant. -/
def Obligations.TagOfAMessage : Prop :=
  ∀ (s : State) (m : List Byte), ∃ t u,
    exec (.pInit 32) s = .next t ∧ computeTag (pieces 16 m.length m) t = .next u ∧
    numBytes u.tag 16 = tagOf s.variant (bytesFrom s.pkeyin 0 32) m ∧ u.tvalid = true ∧ u.errcode = s.errcode

/-- R210, the spec's own inference from R206, R207 and R209: the verify sequence, for a supplied tag of any length. For
16 bytes: after computing, `tagcmp 16` sets `EQ` to what the reference's verify answers. For any other length: the
sequence is one TAGCMP whose length field is not 16 and encodes; it gives the reference's answer, false, in `EQ`,
without error, and changes nothing else. That a length beyond the field is sent as 0 is R207's example. -/
def Obligations.VerifyOfAMessage : Prop :=
  (∀ (s : State) (m : List Byte), ∃ t u w,
    exec (.pInit 32) s = .next t ∧ computeTag (pieces 16 m.length m) t = .next u ∧
    exec (.tagcmp 16) u = .next w ∧
    w.eq = verify s.variant (bytesFrom s.pkeyin 0 32) m (numBytes s.tagin 16)) ∧
  (∀ (s : State) (k m supplied : List Byte), supplied.length ≠ 16 → ∃ len w,
    verifyProgram m supplied = run (.tagcmp len) ∧ len ≠ 16 ∧ (Instr.tagcmp len).wellFormed = true ∧
    exec (.tagcmp len) s = .next w ∧ w.eq = verify s.variant k m supplied ∧
    w = { s with eq := false, busy := false, done := true })

/-- R212, the spec's own inference from R198, R204 and R206, wider than its examples: in DOC_LITERAL, for any key,
every message of zero bytes, of whatever length, has the tag of the empty message. -/
def Obligations.DocLiteralZeroMessagesCollide : Prop :=
  ∀ (k : List Byte) (n : Nat), tagOf .docLiteral k (List.replicate n 0) = tagOf .docLiteral k []

/-! ## Invariants every step keeps -/

/-- R60, the spec's own inference: the object state invariants. -/
def Obligations.StepKeepsObjectInv : Prop := ∀ s t : State, ObjectInv s → step s = .next t → ObjectInv t

/-- An inference from R30, R232, R233 and R237: no completion is reported while busy, and `ERR` is set exactly with a
non-zero `ERRCODE`. -/
def Obligations.StepKeepsLifecycleInv : Prop := ∀ s t : State, LifecycleInv s → step s = .next t → LifecycleInv t

/-- R44, R47: `H` and `FR` stay canonical residues. -/
def Obligations.StepKeepsReducedInv : Prop := ∀ s t : State, ReducedInv s → step s = .next t → ReducedInv t

/-- An inference from R156 to R158: the stream's registers stay those of the cipher object, and the held keystream
block that of the counter before `BCTR`. -/
def Obligations.StepKeepsStreamInv : Prop := ∀ s t : State, StreamInv s → step s = .next t → StreamInv t

/-- An inference from R199, R200, R201 and R205: `TVALID` holds exactly in phase `DONE`, and the tag is the
accumulator plus the pad modulo 2^128. -/
def Obligations.StepKeepsTagInv : Prop := ∀ s t : State, TagInv s → step s = .next t → TagInv t

/-- An inference from R197 and R200: an authenticator object's multiplier is clamped, in either variant. -/
def Obligations.StepKeepsClampInv : Prop := ∀ s t : State, ClampInv s → step s = .next t → ClampInv t

/-- R261, and R263's inference: the state after reset meets every invariant, in either variant. -/
def Obligations.ResetMeetsTheInvariants : Prop :=
  ∀ v : PolyVariant,
    ObjectInv (State.resetFor v) ∧ LifecycleInv (State.resetFor v) ∧ ReducedInv (State.resetFor v) ∧
    StreamInv (State.resetFor v) ∧ TagInv (State.resetFor v) ∧ ClampInv (State.resetFor v)

/-! ## Host programs -/

/-- R107: the reads `rdbytes` expands to, performed while idle, denote the bytes 0 to n-1 of the consecutive words they
read: byte k is byte k mod 4 of word k div 4. Only the host's read log and position change (the model's fields, log 5). -/
def Obligations.RdbytesDenotesTheBytesRead : Prop :=
  ∀ (s : State) (off n : Nat), s.rstN = true → s.busy = false → rdbytes off n <+: s.program.drop s.hostPos → ∃ t,
    Host.Core.run Sys2Proof.core ((n + 3) / 4) s = .next t ∧
    rdbytesValue n t.readLog =
      (List.range n).map (fun k => wordByte (memRead s (idxOf (off + 4 * (k / 4)))) (k % 4)) ∧
    t = { s with readLog := t.readLog, hostPos := s.hostPos + (n + 3) / 4 }
end

