-- ==== Sys2Proof/Laws/Operands.lean ====
section
/-!
SUPPORT. What the operand forms do: rotation, little-endian conversion, and read-after-write of bytes of a register
array and of words of a multi-word integer register.
-/

namespace Sys2Proof.Machine

theorem rotl32_eq_rotateLeft (x : Word) (n : Nat) (h : n < 32) : rotl32 x n = x.rotateLeft n := by
  simp [rotl32, BitVec.rotateLeft, BitVec.rotateLeftAux, Nat.mod_eq_of_lt h]

theorem rotl32_inj (n : Nat) (h : n < 32) {x y : Word} (e : rotl32 x n = rotl32 y n) : x = y := by
  rw [rotl32_eq_rotateLeft x n h, rotl32_eq_rotateLeft y n h] at e
  have back : (x.rotateLeft n).rotateRight n = (y.rotateLeft n).rotateRight n := by rw [e]
  ext i hi
  have key : ∀ z : Word, ((z.rotateLeft n).rotateRight n).getLsbD i = z.getLsbD i := by
    intro z
    simp only [BitVec.getLsbD_rotateRight, BitVec.getLsbD_rotateLeft, Nat.mod_eq_of_lt h]
    by_cases c : i < 32 - n
    · have : ¬ (n + i < n) := by omega
      have e1 : n + i - n = i := by omega
      simp [c, e1]
      intro
      omega
    · have c' : i - (32 - n) < n := by omega
      have e1 : 32 - n + (i - (32 - n)) = i := by omega
      simp [c, hi, c', e1]
  have hx := key x
  have hy := key y
  rw [back, hy] at hx
  simpa [BitVec.getLsbD_eq_getElem hi] using hx.symm

@[simp] theorem leBytes_length (n v : Nat) : (leBytes n v).length = n := by
  induction n generalizing v with
  | zero => rfl
  | succ n ih => simp [leBytes, ih]

theorem leValue_lt (bs : List Byte) : leValue bs < 2 ^ (8 * bs.length) := by
  induction bs with
  | nil => simp [leValue]
  | cons b bs ih =>
    have hb := b.isLt
    have e : 2 ^ (8 * (b :: bs).length) = 256 * 2 ^ (8 * bs.length) := by
      rw [List.length_cons, Nat.mul_succ, Nat.pow_add]
      omega
    simp only [leValue]
    omega

theorem leValue_leBytes (n v : Nat) : leValue (leBytes n v) = v % 2 ^ (8 * n) := by
  induction n generalizing v with
  | zero => simp [leValue, leBytes, Nat.mod_one]
  | succ n ih =>
    have e : 2 ^ (8 * (n + 1)) = 256 * 2 ^ (8 * n) := by
      rw [Nat.mul_succ, Nat.pow_add]
      omega
    simp only [leBytes, leValue, ih, BitVec.toNat_ofNat]
    rw [e, Nat.mod_mul]

theorem leBytes_leValue (bs : List Byte) : leBytes bs.length (leValue bs) = bs := by
  induction bs with
  | nil => rfl
  | cons b bs ih =>
    have hb := b.isLt
    have e1 : (b.toNat + 256 * leValue bs) / 256 = leValue bs := by omega
    simp only [List.length_cons, leBytes, leValue, e1, ih]
    congr 1
    apply BitVec.eq_of_toNat_eq
    simp
    omega

theorem wordByte_setWordByte_same (w : Word) (k : Nat) (hk : k < 4) (b : Byte) :
    wordByte (setWordByte w k b) k = b := by
  have : k = 0 ∨ k = 1 ∨ k = 2 ∨ k = 3 := by omega
  ext i hi
  rcases this with rfl | rfl | rfl | rfl <;>
    simp [wordByte, setWordByte, BitVec.getElem_extractLsb', BitVec.getLsbD_eq_getElem, hi] <;>
    interval_cases i <;> simp

theorem wordByte_setWordByte_other (w : Word) (j k : Nat) (hj : j < 4) (hk : k < 4) (h : j ≠ k) (b : Byte) :
    wordByte (setWordByte w k b) j = wordByte w j := by
  have h1 : k = 0 ∨ k = 1 ∨ k = 2 ∨ k = 3 := by omega
  have h2 : j = 0 ∨ j = 1 ∨ j = 2 ∨ j = 3 := by omega
  ext i hi
  rcases h1 with rfl | rfl | rfl | rfl <;> rcases h2 with rfl | rfl | rfl | rfl <;>
    first
    | exact absurd rfl h
    | (simp [wordByte, setWordByte, BitVec.getElem_extractLsb', hi]; interval_cases i <;> simp)

/-- A byte write changes the byte it names. -/
theorem byteOf_setByte_same {n : Nat} (A : Vector Word n) (j : Nat) (v : Byte) (h : j / 4 < n) :
    byteOf (setByte A j v) j = v := by
  simp [byteOf, setByte, h, wordByte_setWordByte_same _ _ (Nat.mod_lt j (by decide : 0 < 4))]

/-- A byte write changes no other byte (R14). -/
theorem byteOf_setByte_other {n : Nat} (A : Vector Word n) (i j : Nat) (v : Byte) (h : i ≠ j) :
    byteOf (setByte A j v) i = byteOf A i := by
  unfold byteOf setByte
  by_cases c : j / 4 < n
  · simp only [c, dite_true]
    by_cases e : i / 4 = j / 4
    · have hm : i % 4 ≠ j % 4 := by omega
      simp [e, c, wordByte_setWordByte_other _ _ _ (Nat.mod_lt i (by decide : 0 < 4))
        (Nat.mod_lt j (by decide : 0 < 4)) hm]
    · have : ¬ (j / 4 = i / 4) := fun x => e x.symm
      simp [this]
  · simp [c]

@[simp] theorem bytesFrom_length {n : Nat} (A : Vector Word n) (start len : Nat) :
    (bytesFrom A start len).length = len := by
  simp [bytesFrom]

@[simp] theorem numBytes_length {n : Nat} (x : BitVec n) (len : Nat) : (numBytes x len).length = len := by
  simp [numBytes]

end Sys2Proof.Machine
end

