-- ==== Sys2Proof/Laws/State.lean ====
section
/-!
SUPPORT. The small lemmas of the state's named updates: what each one does to each field, true by unfolding, so that no
proof unfolds a record update.
-/

namespace Sys2Proof.Machine

@[simp] theorem resetFor_variant (v : PolyVariant) : (State.resetFor v).variant = v := rfl
@[simp] theorem resetFor_ie (v : PolyVariant) : (State.resetFor v).ie = false := rfl
@[simp] theorem resetFor_busy (v : PolyVariant) : (State.resetFor v).busy = false := rfl
@[simp] theorem resetFor_done (v : PolyVariant) : (State.resetFor v).done = false := rfl
@[simp] theorem resetFor_err (v : PolyVariant) : (State.resetFor v).err = false := rfl
@[simp] theorem resetFor_eq (v : PolyVariant) : (State.resetFor v).eq = false := rfl
@[simp] theorem resetFor_errcode (v : PolyVariant) : (State.resetFor v).errcode = .none := rfl
@[simp] theorem resetFor_cvalid (v : PolyVariant) : (State.resetFor v).cvalid = false := rfl
@[simp] theorem resetFor_cstream (v : PolyVariant) : (State.resetFor v).cstream = false := rfl
@[simp] theorem resetFor_craw (v : PolyVariant) : (State.resetFor v).craw = false := rfl
@[simp] theorem resetFor_avalid (v : PolyVariant) : (State.resetFor v).avalid = false := rfl
@[simp] theorem resetFor_pphase (v : PolyVariant) : (State.resetFor v).pphase = .idle := rfl
@[simp] theorem resetFor_tvalid (v : PolyVariant) : (State.resetFor v).tvalid = false := rfl
@[simp] theorem resetFor_wdrop (v : PolyVariant) : (State.resetFor v).wdrop = false := rfl
@[simp] theorem resetFor_pending (v : PolyVariant) : (State.resetFor v).pending = 0 := rfl
@[simp] theorem resetFor_ctrin (v : PolyVariant) : (State.resetFor v).ctrin = 0 := rfl
@[simp] theorem resetFor_bctr (v : PolyVariant) : (State.resetFor v).bctr = 0 := rfl
@[simp] theorem resetFor_kpos (v : PolyVariant) : (State.resetFor v).kpos = 0 := rfl
@[simp] theorem resetFor_keyin (v : PolyVariant) : (State.resetFor v).keyin = Vector.replicate 8 0 := rfl
@[simp] theorem resetFor_noncein (v : PolyVariant) : (State.resetFor v).noncein = Vector.replicate 6 0 := rfl
@[simp] theorem resetFor_st (v : PolyVariant) : (State.resetFor v).st = Vector.replicate 16 0 := rfl
@[simp] theorem resetFor_din (v : PolyVariant) : (State.resetFor v).din = Vector.replicate 16 0 := rfl
@[simp] theorem resetFor_dout (v : PolyVariant) : (State.resetFor v).dout = Vector.replicate 16 0 := rfl
@[simp] theorem resetFor_hout (v : PolyVariant) : (State.resetFor v).hout = Vector.replicate 8 0 := rfl
@[simp] theorem resetFor_pkeyin (v : PolyVariant) : (State.resetFor v).pkeyin = Vector.replicate 8 0 := rfl
@[simp] theorem resetFor_fa (v : PolyVariant) : (State.resetFor v).fa = 0 := rfl
@[simp] theorem resetFor_fb (v : PolyVariant) : (State.resetFor v).fb = 0 := rfl
@[simp] theorem resetFor_fr (v : PolyVariant) : (State.resetFor v).fr = 0 := rfl
@[simp] theorem resetFor_tag (v : PolyVariant) : (State.resetFor v).tag = 0 := rfl
@[simp] theorem resetFor_tagin (v : PolyVariant) : (State.resetFor v).tagin = 0 := rfl
@[simp] theorem resetFor_h (v : PolyVariant) : (State.resetFor v).h = 0 := rfl
@[simp] theorem resetFor_r (v : PolyVariant) : (State.resetFor v).r = 0 := rfl
@[simp] theorem resetFor_pad (v : PolyVariant) : (State.resetFor v).pad = 0 := rfl
@[simp] theorem resetFor_sk (v : PolyVariant) : (State.resetFor v).sk = Vector.replicate 8 0 := rfl
@[simp] theorem resetFor_n12 (v : PolyVariant) : (State.resetFor v).n12 = Vector.replicate 3 0 := rfl
@[simp] theorem resetFor_ks (v : PolyVariant) : (State.resetFor v).ks = Vector.replicate 16 0 := rfl
@[simp] theorem resetFor_ckey (v : PolyVariant) : (State.resetFor v).ckey = Vector.replicate 8 0 := rfl
@[simp] theorem resetFor_cnonce (v : PolyVariant) : (State.resetFor v).cnonce = Vector.replicate 6 0 := rfl
@[simp] theorem resetFor_cctr0 (v : PolyVariant) : (State.resetFor v).cctr0 = 0 := rfl
@[simp] theorem resetFor_rstN (v : PolyVariant) : (State.resetFor v).rstN = true := rfl
@[simp] theorem resetFor_program (v : PolyVariant) : (State.resetFor v).program = [] := rfl
@[simp] theorem resetFor_hostPos (v : PolyVariant) : (State.resetFor v).hostPos = 0 := rfl
@[simp] theorem resetFor_readLog (v : PolyVariant) : (State.resetFor v).readLog = [] := rfl
@[simp] theorem resetFor_delay (v : PolyVariant) : (State.resetFor v).delay = 0 := rfl
@[simp] theorem resetFor_draws (v : PolyVariant) : (State.resetFor v).draws = 0 := rfl

@[simp] theorem complete_variant (code : ErrCode) (s : State) : (complete code s).variant = s.variant := rfl
@[simp] theorem complete_ie (code : ErrCode) (s : State) : (complete code s).ie = s.ie := rfl
@[simp] theorem complete_busy (code : ErrCode) (s : State) : (complete code s).busy = false := rfl
@[simp] theorem complete_done (code : ErrCode) (s : State) : (complete code s).done = true := rfl
@[simp] theorem complete_err (code : ErrCode) (s : State) :
    (complete code s).err = (s.err || decide (code ≠ .none)) := rfl
@[simp] theorem complete_eq (code : ErrCode) (s : State) : (complete code s).eq = s.eq := rfl
@[simp] theorem complete_errcode (code : ErrCode) (s : State) :
    (complete code s).errcode = if code = .none then s.errcode else code := rfl
@[simp] theorem complete_cvalid (code : ErrCode) (s : State) : (complete code s).cvalid = s.cvalid := rfl
@[simp] theorem complete_cstream (code : ErrCode) (s : State) : (complete code s).cstream = s.cstream := rfl
@[simp] theorem complete_craw (code : ErrCode) (s : State) : (complete code s).craw = s.craw := rfl
@[simp] theorem complete_avalid (code : ErrCode) (s : State) : (complete code s).avalid = s.avalid := rfl
@[simp] theorem complete_pphase (code : ErrCode) (s : State) : (complete code s).pphase = s.pphase := rfl
@[simp] theorem complete_tvalid (code : ErrCode) (s : State) : (complete code s).tvalid = s.tvalid := rfl
@[simp] theorem complete_wdrop (code : ErrCode) (s : State) : (complete code s).wdrop = s.wdrop := rfl
@[simp] theorem complete_pending (code : ErrCode) (s : State) : (complete code s).pending = s.pending := rfl
@[simp] theorem complete_ctrin (code : ErrCode) (s : State) : (complete code s).ctrin = s.ctrin := rfl
@[simp] theorem complete_bctr (code : ErrCode) (s : State) : (complete code s).bctr = s.bctr := rfl
@[simp] theorem complete_kpos (code : ErrCode) (s : State) : (complete code s).kpos = s.kpos := rfl
@[simp] theorem complete_keyin (code : ErrCode) (s : State) : (complete code s).keyin = s.keyin := rfl
@[simp] theorem complete_noncein (code : ErrCode) (s : State) : (complete code s).noncein = s.noncein := rfl
@[simp] theorem complete_st (code : ErrCode) (s : State) : (complete code s).st = s.st := rfl
@[simp] theorem complete_din (code : ErrCode) (s : State) : (complete code s).din = s.din := rfl
@[simp] theorem complete_dout (code : ErrCode) (s : State) : (complete code s).dout = s.dout := rfl
@[simp] theorem complete_hout (code : ErrCode) (s : State) : (complete code s).hout = s.hout := rfl
@[simp] theorem complete_pkeyin (code : ErrCode) (s : State) : (complete code s).pkeyin = s.pkeyin := rfl
@[simp] theorem complete_fa (code : ErrCode) (s : State) : (complete code s).fa = s.fa := rfl
@[simp] theorem complete_fb (code : ErrCode) (s : State) : (complete code s).fb = s.fb := rfl
@[simp] theorem complete_fr (code : ErrCode) (s : State) : (complete code s).fr = s.fr := rfl
@[simp] theorem complete_tag (code : ErrCode) (s : State) : (complete code s).tag = s.tag := rfl
@[simp] theorem complete_tagin (code : ErrCode) (s : State) : (complete code s).tagin = s.tagin := rfl
@[simp] theorem complete_h (code : ErrCode) (s : State) : (complete code s).h = s.h := rfl
@[simp] theorem complete_r (code : ErrCode) (s : State) : (complete code s).r = s.r := rfl
@[simp] theorem complete_pad (code : ErrCode) (s : State) : (complete code s).pad = s.pad := rfl
@[simp] theorem complete_sk (code : ErrCode) (s : State) : (complete code s).sk = s.sk := rfl
@[simp] theorem complete_n12 (code : ErrCode) (s : State) : (complete code s).n12 = s.n12 := rfl
@[simp] theorem complete_ks (code : ErrCode) (s : State) : (complete code s).ks = s.ks := rfl
@[simp] theorem complete_ckey (code : ErrCode) (s : State) : (complete code s).ckey = s.ckey := rfl
@[simp] theorem complete_cnonce (code : ErrCode) (s : State) : (complete code s).cnonce = s.cnonce := rfl
@[simp] theorem complete_cctr0 (code : ErrCode) (s : State) : (complete code s).cctr0 = s.cctr0 := rfl
@[simp] theorem complete_rstN (code : ErrCode) (s : State) : (complete code s).rstN = s.rstN := rfl
@[simp] theorem complete_program (code : ErrCode) (s : State) : (complete code s).program = s.program := rfl
@[simp] theorem complete_hostPos (code : ErrCode) (s : State) : (complete code s).hostPos = s.hostPos := rfl
@[simp] theorem complete_readLog (code : ErrCode) (s : State) : (complete code s).readLog = s.readLog := rfl
@[simp] theorem complete_delay (code : ErrCode) (s : State) : (complete code s).delay = s.delay := rfl
@[simp] theorem complete_draws (code : ErrCode) (s : State) : (complete code s).draws = s.draws := rfl

@[simp] theorem accept_variant (v : Word) (s : State) : (accept v s).variant = s.variant := rfl
@[simp] theorem accept_ie (v : Word) (s : State) : (accept v s).ie = s.ie := rfl
@[simp] theorem accept_busy (v : Word) (s : State) : (accept v s).busy = true := rfl
@[simp] theorem accept_done (v : Word) (s : State) : (accept v s).done = false := rfl
@[simp] theorem accept_err (v : Word) (s : State) : (accept v s).err = false := rfl
@[simp] theorem accept_eq (v : Word) (s : State) : (accept v s).eq = s.eq := rfl
@[simp] theorem accept_errcode (v : Word) (s : State) : (accept v s).errcode = .none := rfl
@[simp] theorem accept_cvalid (v : Word) (s : State) : (accept v s).cvalid = s.cvalid := rfl
@[simp] theorem accept_cstream (v : Word) (s : State) : (accept v s).cstream = s.cstream := rfl
@[simp] theorem accept_craw (v : Word) (s : State) : (accept v s).craw = s.craw := rfl
@[simp] theorem accept_avalid (v : Word) (s : State) : (accept v s).avalid = s.avalid := rfl
@[simp] theorem accept_pphase (v : Word) (s : State) : (accept v s).pphase = s.pphase := rfl
@[simp] theorem accept_tvalid (v : Word) (s : State) : (accept v s).tvalid = s.tvalid := rfl
@[simp] theorem accept_wdrop (v : Word) (s : State) : (accept v s).wdrop = s.wdrop := rfl
@[simp] theorem accept_pending (v : Word) (s : State) : (accept v s).pending = v := rfl
@[simp] theorem accept_ctrin (v : Word) (s : State) : (accept v s).ctrin = s.ctrin := rfl
@[simp] theorem accept_bctr (v : Word) (s : State) : (accept v s).bctr = s.bctr := rfl
@[simp] theorem accept_kpos (v : Word) (s : State) : (accept v s).kpos = s.kpos := rfl
@[simp] theorem accept_keyin (v : Word) (s : State) : (accept v s).keyin = s.keyin := rfl
@[simp] theorem accept_noncein (v : Word) (s : State) : (accept v s).noncein = s.noncein := rfl
@[simp] theorem accept_st (v : Word) (s : State) : (accept v s).st = s.st := rfl
@[simp] theorem accept_din (v : Word) (s : State) : (accept v s).din = s.din := rfl
@[simp] theorem accept_dout (v : Word) (s : State) : (accept v s).dout = s.dout := rfl
@[simp] theorem accept_hout (v : Word) (s : State) : (accept v s).hout = s.hout := rfl
@[simp] theorem accept_pkeyin (v : Word) (s : State) : (accept v s).pkeyin = s.pkeyin := rfl
@[simp] theorem accept_fa (v : Word) (s : State) : (accept v s).fa = s.fa := rfl
@[simp] theorem accept_fb (v : Word) (s : State) : (accept v s).fb = s.fb := rfl
@[simp] theorem accept_fr (v : Word) (s : State) : (accept v s).fr = s.fr := rfl
@[simp] theorem accept_tag (v : Word) (s : State) : (accept v s).tag = s.tag := rfl
@[simp] theorem accept_tagin (v : Word) (s : State) : (accept v s).tagin = s.tagin := rfl
@[simp] theorem accept_h (v : Word) (s : State) : (accept v s).h = s.h := rfl
@[simp] theorem accept_r (v : Word) (s : State) : (accept v s).r = s.r := rfl
@[simp] theorem accept_pad (v : Word) (s : State) : (accept v s).pad = s.pad := rfl
@[simp] theorem accept_sk (v : Word) (s : State) : (accept v s).sk = s.sk := rfl
@[simp] theorem accept_n12 (v : Word) (s : State) : (accept v s).n12 = s.n12 := rfl
@[simp] theorem accept_ks (v : Word) (s : State) : (accept v s).ks = s.ks := rfl
@[simp] theorem accept_ckey (v : Word) (s : State) : (accept v s).ckey = s.ckey := rfl
@[simp] theorem accept_cnonce (v : Word) (s : State) : (accept v s).cnonce = s.cnonce := rfl
@[simp] theorem accept_cctr0 (v : Word) (s : State) : (accept v s).cctr0 = s.cctr0 := rfl
@[simp] theorem accept_rstN (v : Word) (s : State) : (accept v s).rstN = s.rstN := rfl
@[simp] theorem accept_program (v : Word) (s : State) : (accept v s).program = s.program := rfl
@[simp] theorem accept_hostPos (v : Word) (s : State) : (accept v s).hostPos = s.hostPos := rfl
@[simp] theorem accept_readLog (v : Word) (s : State) : (accept v s).readLog = s.readLog := rfl
@[simp] theorem accept_delay (v : Word) (s : State) : (accept v s).delay = Config.engineDelay s.draws := rfl
@[simp] theorem accept_draws (v : Word) (s : State) : (accept v s).draws = s.draws + 1 := rfl

@[simp] theorem blockReset_variant (s : State) : (blockReset s).variant = s.variant := rfl
@[simp] theorem blockReset_ie (s : State) : (blockReset s).ie = (State.resetFor s.variant).ie := rfl
@[simp] theorem blockReset_busy (s : State) : (blockReset s).busy = (State.resetFor s.variant).busy := rfl
@[simp] theorem blockReset_done (s : State) : (blockReset s).done = (State.resetFor s.variant).done := rfl
@[simp] theorem blockReset_err (s : State) : (blockReset s).err = (State.resetFor s.variant).err := rfl
@[simp] theorem blockReset_eq (s : State) : (blockReset s).eq = (State.resetFor s.variant).eq := rfl
@[simp] theorem blockReset_errcode (s : State) : (blockReset s).errcode = (State.resetFor s.variant).errcode := rfl
@[simp] theorem blockReset_cvalid (s : State) : (blockReset s).cvalid = (State.resetFor s.variant).cvalid := rfl
@[simp] theorem blockReset_cstream (s : State) : (blockReset s).cstream = (State.resetFor s.variant).cstream := rfl
@[simp] theorem blockReset_craw (s : State) : (blockReset s).craw = (State.resetFor s.variant).craw := rfl
@[simp] theorem blockReset_avalid (s : State) : (blockReset s).avalid = (State.resetFor s.variant).avalid := rfl
@[simp] theorem blockReset_pphase (s : State) : (blockReset s).pphase = (State.resetFor s.variant).pphase := rfl
@[simp] theorem blockReset_tvalid (s : State) : (blockReset s).tvalid = (State.resetFor s.variant).tvalid := rfl
@[simp] theorem blockReset_wdrop (s : State) : (blockReset s).wdrop = (State.resetFor s.variant).wdrop := rfl
@[simp] theorem blockReset_pending (s : State) : (blockReset s).pending = (State.resetFor s.variant).pending := rfl
@[simp] theorem blockReset_ctrin (s : State) : (blockReset s).ctrin = (State.resetFor s.variant).ctrin := rfl
@[simp] theorem blockReset_bctr (s : State) : (blockReset s).bctr = (State.resetFor s.variant).bctr := rfl
@[simp] theorem blockReset_kpos (s : State) : (blockReset s).kpos = (State.resetFor s.variant).kpos := rfl
@[simp] theorem blockReset_keyin (s : State) : (blockReset s).keyin = (State.resetFor s.variant).keyin := rfl
@[simp] theorem blockReset_noncein (s : State) : (blockReset s).noncein = (State.resetFor s.variant).noncein := rfl
@[simp] theorem blockReset_st (s : State) : (blockReset s).st = (State.resetFor s.variant).st := rfl
@[simp] theorem blockReset_din (s : State) : (blockReset s).din = (State.resetFor s.variant).din := rfl
@[simp] theorem blockReset_dout (s : State) : (blockReset s).dout = (State.resetFor s.variant).dout := rfl
@[simp] theorem blockReset_hout (s : State) : (blockReset s).hout = (State.resetFor s.variant).hout := rfl
@[simp] theorem blockReset_pkeyin (s : State) : (blockReset s).pkeyin = (State.resetFor s.variant).pkeyin := rfl
@[simp] theorem blockReset_fa (s : State) : (blockReset s).fa = (State.resetFor s.variant).fa := rfl
@[simp] theorem blockReset_fb (s : State) : (blockReset s).fb = (State.resetFor s.variant).fb := rfl
@[simp] theorem blockReset_fr (s : State) : (blockReset s).fr = (State.resetFor s.variant).fr := rfl
@[simp] theorem blockReset_tag (s : State) : (blockReset s).tag = (State.resetFor s.variant).tag := rfl
@[simp] theorem blockReset_tagin (s : State) : (blockReset s).tagin = (State.resetFor s.variant).tagin := rfl
@[simp] theorem blockReset_h (s : State) : (blockReset s).h = (State.resetFor s.variant).h := rfl
@[simp] theorem blockReset_r (s : State) : (blockReset s).r = (State.resetFor s.variant).r := rfl
@[simp] theorem blockReset_pad (s : State) : (blockReset s).pad = (State.resetFor s.variant).pad := rfl
@[simp] theorem blockReset_sk (s : State) : (blockReset s).sk = (State.resetFor s.variant).sk := rfl
@[simp] theorem blockReset_n12 (s : State) : (blockReset s).n12 = (State.resetFor s.variant).n12 := rfl
@[simp] theorem blockReset_ks (s : State) : (blockReset s).ks = (State.resetFor s.variant).ks := rfl
@[simp] theorem blockReset_ckey (s : State) : (blockReset s).ckey = (State.resetFor s.variant).ckey := rfl
@[simp] theorem blockReset_cnonce (s : State) : (blockReset s).cnonce = (State.resetFor s.variant).cnonce := rfl
@[simp] theorem blockReset_cctr0 (s : State) : (blockReset s).cctr0 = (State.resetFor s.variant).cctr0 := rfl
@[simp] theorem blockReset_rstN (s : State) : (blockReset s).rstN = s.rstN := rfl
@[simp] theorem blockReset_program (s : State) : (blockReset s).program = s.program := rfl
@[simp] theorem blockReset_hostPos (s : State) : (blockReset s).hostPos = s.hostPos := rfl
@[simp] theorem blockReset_readLog (s : State) : (blockReset s).readLog = s.readLog := rfl
@[simp] theorem blockReset_delay (s : State) : (blockReset s).delay = (State.resetFor s.variant).delay := rfl
@[simp] theorem blockReset_draws (s : State) : (blockReset s).draws = s.draws := rfl

@[simp] theorem writeStatus_variant (v : Word) (s : State) : (writeStatus v s).variant = s.variant := rfl
@[simp] theorem writeStatus_ie (v : Word) (s : State) : (writeStatus v s).ie = s.ie := rfl
@[simp] theorem writeStatus_busy (v : Word) (s : State) : (writeStatus v s).busy = s.busy := rfl
@[simp] theorem writeStatus_done (v : Word) (s : State) : (writeStatus v s).done = (s.done && !v.getLsbD 1) := rfl
@[simp] theorem writeStatus_err (v : Word) (s : State) : (writeStatus v s).err = (s.err && !v.getLsbD 2) := rfl
@[simp] theorem writeStatus_eq (v : Word) (s : State) : (writeStatus v s).eq = s.eq := rfl
@[simp] theorem writeStatus_errcode (v : Word) (s : State) :
    (writeStatus v s).errcode = if v.getLsbD 2 then .none else s.errcode := rfl
@[simp] theorem writeStatus_cvalid (v : Word) (s : State) : (writeStatus v s).cvalid = s.cvalid := rfl
@[simp] theorem writeStatus_cstream (v : Word) (s : State) : (writeStatus v s).cstream = s.cstream := rfl
@[simp] theorem writeStatus_craw (v : Word) (s : State) : (writeStatus v s).craw = s.craw := rfl
@[simp] theorem writeStatus_avalid (v : Word) (s : State) : (writeStatus v s).avalid = s.avalid := rfl
@[simp] theorem writeStatus_pphase (v : Word) (s : State) : (writeStatus v s).pphase = s.pphase := rfl
@[simp] theorem writeStatus_tvalid (v : Word) (s : State) : (writeStatus v s).tvalid = s.tvalid := rfl
@[simp] theorem writeStatus_wdrop (v : Word) (s : State) : (writeStatus v s).wdrop = (s.wdrop && !v.getLsbD 15) := rfl
@[simp] theorem writeStatus_pending (v : Word) (s : State) : (writeStatus v s).pending = s.pending := rfl
@[simp] theorem writeStatus_ctrin (v : Word) (s : State) : (writeStatus v s).ctrin = s.ctrin := rfl
@[simp] theorem writeStatus_bctr (v : Word) (s : State) : (writeStatus v s).bctr = s.bctr := rfl
@[simp] theorem writeStatus_kpos (v : Word) (s : State) : (writeStatus v s).kpos = s.kpos := rfl
@[simp] theorem writeStatus_keyin (v : Word) (s : State) : (writeStatus v s).keyin = s.keyin := rfl
@[simp] theorem writeStatus_noncein (v : Word) (s : State) : (writeStatus v s).noncein = s.noncein := rfl
@[simp] theorem writeStatus_st (v : Word) (s : State) : (writeStatus v s).st = s.st := rfl
@[simp] theorem writeStatus_din (v : Word) (s : State) : (writeStatus v s).din = s.din := rfl
@[simp] theorem writeStatus_dout (v : Word) (s : State) : (writeStatus v s).dout = s.dout := rfl
@[simp] theorem writeStatus_hout (v : Word) (s : State) : (writeStatus v s).hout = s.hout := rfl
@[simp] theorem writeStatus_pkeyin (v : Word) (s : State) : (writeStatus v s).pkeyin = s.pkeyin := rfl
@[simp] theorem writeStatus_fa (v : Word) (s : State) : (writeStatus v s).fa = s.fa := rfl
@[simp] theorem writeStatus_fb (v : Word) (s : State) : (writeStatus v s).fb = s.fb := rfl
@[simp] theorem writeStatus_fr (v : Word) (s : State) : (writeStatus v s).fr = s.fr := rfl
@[simp] theorem writeStatus_tag (v : Word) (s : State) : (writeStatus v s).tag = s.tag := rfl
@[simp] theorem writeStatus_tagin (v : Word) (s : State) : (writeStatus v s).tagin = s.tagin := rfl
@[simp] theorem writeStatus_h (v : Word) (s : State) : (writeStatus v s).h = s.h := rfl
@[simp] theorem writeStatus_r (v : Word) (s : State) : (writeStatus v s).r = s.r := rfl
@[simp] theorem writeStatus_pad (v : Word) (s : State) : (writeStatus v s).pad = s.pad := rfl
@[simp] theorem writeStatus_sk (v : Word) (s : State) : (writeStatus v s).sk = s.sk := rfl
@[simp] theorem writeStatus_n12 (v : Word) (s : State) : (writeStatus v s).n12 = s.n12 := rfl
@[simp] theorem writeStatus_ks (v : Word) (s : State) : (writeStatus v s).ks = s.ks := rfl
@[simp] theorem writeStatus_ckey (v : Word) (s : State) : (writeStatus v s).ckey = s.ckey := rfl
@[simp] theorem writeStatus_cnonce (v : Word) (s : State) : (writeStatus v s).cnonce = s.cnonce := rfl
@[simp] theorem writeStatus_cctr0 (v : Word) (s : State) : (writeStatus v s).cctr0 = s.cctr0 := rfl
@[simp] theorem writeStatus_rstN (v : Word) (s : State) : (writeStatus v s).rstN = s.rstN := rfl
@[simp] theorem writeStatus_program (v : Word) (s : State) : (writeStatus v s).program = s.program := rfl
@[simp] theorem writeStatus_hostPos (v : Word) (s : State) : (writeStatus v s).hostPos = s.hostPos := rfl
@[simp] theorem writeStatus_readLog (v : Word) (s : State) : (writeStatus v s).readLog = s.readLog := rfl
@[simp] theorem writeStatus_delay (v : Word) (s : State) : (writeStatus v s).delay = s.delay := rfl
@[simp] theorem writeStatus_draws (v : Word) (s : State) : (writeStatus v s).draws = s.draws := rfl

@[simp] theorem acceptedNow_variant (w : Word) (s : State) : (acceptedNow w s).variant = s.variant := rfl
@[simp] theorem acceptedNow_ie (w : Word) (s : State) : (acceptedNow w s).ie = s.ie := rfl
@[simp] theorem acceptedNow_busy (w : Word) (s : State) : (acceptedNow w s).busy = true := rfl
@[simp] theorem acceptedNow_done (w : Word) (s : State) : (acceptedNow w s).done = false := rfl
@[simp] theorem acceptedNow_err (w : Word) (s : State) : (acceptedNow w s).err = false := rfl
@[simp] theorem acceptedNow_eq (w : Word) (s : State) : (acceptedNow w s).eq = s.eq := rfl
@[simp] theorem acceptedNow_errcode (w : Word) (s : State) : (acceptedNow w s).errcode = .none := rfl
@[simp] theorem acceptedNow_cvalid (w : Word) (s : State) : (acceptedNow w s).cvalid = s.cvalid := rfl
@[simp] theorem acceptedNow_cstream (w : Word) (s : State) : (acceptedNow w s).cstream = s.cstream := rfl
@[simp] theorem acceptedNow_craw (w : Word) (s : State) : (acceptedNow w s).craw = s.craw := rfl
@[simp] theorem acceptedNow_avalid (w : Word) (s : State) : (acceptedNow w s).avalid = s.avalid := rfl
@[simp] theorem acceptedNow_pphase (w : Word) (s : State) : (acceptedNow w s).pphase = s.pphase := rfl
@[simp] theorem acceptedNow_tvalid (w : Word) (s : State) : (acceptedNow w s).tvalid = s.tvalid := rfl
@[simp] theorem acceptedNow_wdrop (w : Word) (s : State) : (acceptedNow w s).wdrop = s.wdrop := rfl
@[simp] theorem acceptedNow_pending (w : Word) (s : State) : (acceptedNow w s).pending = w := rfl
@[simp] theorem acceptedNow_ctrin (w : Word) (s : State) : (acceptedNow w s).ctrin = s.ctrin := rfl
@[simp] theorem acceptedNow_bctr (w : Word) (s : State) : (acceptedNow w s).bctr = s.bctr := rfl
@[simp] theorem acceptedNow_kpos (w : Word) (s : State) : (acceptedNow w s).kpos = s.kpos := rfl
@[simp] theorem acceptedNow_keyin (w : Word) (s : State) : (acceptedNow w s).keyin = s.keyin := rfl
@[simp] theorem acceptedNow_noncein (w : Word) (s : State) : (acceptedNow w s).noncein = s.noncein := rfl
@[simp] theorem acceptedNow_st (w : Word) (s : State) : (acceptedNow w s).st = s.st := rfl
@[simp] theorem acceptedNow_din (w : Word) (s : State) : (acceptedNow w s).din = s.din := rfl
@[simp] theorem acceptedNow_dout (w : Word) (s : State) : (acceptedNow w s).dout = s.dout := rfl
@[simp] theorem acceptedNow_hout (w : Word) (s : State) : (acceptedNow w s).hout = s.hout := rfl
@[simp] theorem acceptedNow_pkeyin (w : Word) (s : State) : (acceptedNow w s).pkeyin = s.pkeyin := rfl
@[simp] theorem acceptedNow_fa (w : Word) (s : State) : (acceptedNow w s).fa = s.fa := rfl
@[simp] theorem acceptedNow_fb (w : Word) (s : State) : (acceptedNow w s).fb = s.fb := rfl
@[simp] theorem acceptedNow_fr (w : Word) (s : State) : (acceptedNow w s).fr = s.fr := rfl
@[simp] theorem acceptedNow_tag (w : Word) (s : State) : (acceptedNow w s).tag = s.tag := rfl
@[simp] theorem acceptedNow_tagin (w : Word) (s : State) : (acceptedNow w s).tagin = s.tagin := rfl
@[simp] theorem acceptedNow_h (w : Word) (s : State) : (acceptedNow w s).h = s.h := rfl
@[simp] theorem acceptedNow_r (w : Word) (s : State) : (acceptedNow w s).r = s.r := rfl
@[simp] theorem acceptedNow_pad (w : Word) (s : State) : (acceptedNow w s).pad = s.pad := rfl
@[simp] theorem acceptedNow_sk (w : Word) (s : State) : (acceptedNow w s).sk = s.sk := rfl
@[simp] theorem acceptedNow_n12 (w : Word) (s : State) : (acceptedNow w s).n12 = s.n12 := rfl
@[simp] theorem acceptedNow_ks (w : Word) (s : State) : (acceptedNow w s).ks = s.ks := rfl
@[simp] theorem acceptedNow_ckey (w : Word) (s : State) : (acceptedNow w s).ckey = s.ckey := rfl
@[simp] theorem acceptedNow_cnonce (w : Word) (s : State) : (acceptedNow w s).cnonce = s.cnonce := rfl
@[simp] theorem acceptedNow_cctr0 (w : Word) (s : State) : (acceptedNow w s).cctr0 = s.cctr0 := rfl
@[simp] theorem acceptedNow_rstN (w : Word) (s : State) : (acceptedNow w s).rstN = true := rfl
@[simp] theorem acceptedNow_program (w : Word) (s : State) : (acceptedNow w s).program = s.program := rfl
@[simp] theorem acceptedNow_hostPos (w : Word) (s : State) : (acceptedNow w s).hostPos = s.hostPos := rfl
@[simp] theorem acceptedNow_readLog (w : Word) (s : State) : (acceptedNow w s).readLog = s.readLog := rfl
@[simp] theorem acceptedNow_delay (w : Word) (s : State) : (acceptedNow w s).delay = 0 := rfl
@[simp] theorem acceptedNow_draws (w : Word) (s : State) : (acceptedNow w s).draws = s.draws := rfl

@[simp] theorem advance_variant (s : State) : (advance s).variant = s.variant := rfl
@[simp] theorem advance_ie (s : State) : (advance s).ie = s.ie := rfl
@[simp] theorem advance_busy (s : State) : (advance s).busy = s.busy := rfl
@[simp] theorem advance_done (s : State) : (advance s).done = s.done := rfl
@[simp] theorem advance_err (s : State) : (advance s).err = s.err := rfl
@[simp] theorem advance_eq (s : State) : (advance s).eq = s.eq := rfl
@[simp] theorem advance_errcode (s : State) : (advance s).errcode = s.errcode := rfl
@[simp] theorem advance_cvalid (s : State) : (advance s).cvalid = s.cvalid := rfl
@[simp] theorem advance_cstream (s : State) : (advance s).cstream = s.cstream := rfl
@[simp] theorem advance_craw (s : State) : (advance s).craw = s.craw := rfl
@[simp] theorem advance_avalid (s : State) : (advance s).avalid = s.avalid := rfl
@[simp] theorem advance_pphase (s : State) : (advance s).pphase = s.pphase := rfl
@[simp] theorem advance_tvalid (s : State) : (advance s).tvalid = s.tvalid := rfl
@[simp] theorem advance_wdrop (s : State) : (advance s).wdrop = s.wdrop := rfl
@[simp] theorem advance_pending (s : State) : (advance s).pending = s.pending := rfl
@[simp] theorem advance_ctrin (s : State) : (advance s).ctrin = s.ctrin := rfl
@[simp] theorem advance_bctr (s : State) : (advance s).bctr = s.bctr := rfl
@[simp] theorem advance_kpos (s : State) : (advance s).kpos = s.kpos := rfl
@[simp] theorem advance_keyin (s : State) : (advance s).keyin = s.keyin := rfl
@[simp] theorem advance_noncein (s : State) : (advance s).noncein = s.noncein := rfl
@[simp] theorem advance_st (s : State) : (advance s).st = s.st := rfl
@[simp] theorem advance_din (s : State) : (advance s).din = s.din := rfl
@[simp] theorem advance_dout (s : State) : (advance s).dout = s.dout := rfl
@[simp] theorem advance_hout (s : State) : (advance s).hout = s.hout := rfl
@[simp] theorem advance_pkeyin (s : State) : (advance s).pkeyin = s.pkeyin := rfl
@[simp] theorem advance_fa (s : State) : (advance s).fa = s.fa := rfl
@[simp] theorem advance_fb (s : State) : (advance s).fb = s.fb := rfl
@[simp] theorem advance_fr (s : State) : (advance s).fr = s.fr := rfl
@[simp] theorem advance_tag (s : State) : (advance s).tag = s.tag := rfl
@[simp] theorem advance_tagin (s : State) : (advance s).tagin = s.tagin := rfl
@[simp] theorem advance_h (s : State) : (advance s).h = s.h := rfl
@[simp] theorem advance_r (s : State) : (advance s).r = s.r := rfl
@[simp] theorem advance_pad (s : State) : (advance s).pad = s.pad := rfl
@[simp] theorem advance_sk (s : State) : (advance s).sk = s.sk := rfl
@[simp] theorem advance_n12 (s : State) : (advance s).n12 = s.n12 := rfl
@[simp] theorem advance_ks (s : State) : (advance s).ks = s.ks := rfl
@[simp] theorem advance_ckey (s : State) : (advance s).ckey = s.ckey := rfl
@[simp] theorem advance_cnonce (s : State) : (advance s).cnonce = s.cnonce := rfl
@[simp] theorem advance_cctr0 (s : State) : (advance s).cctr0 = s.cctr0 := rfl
@[simp] theorem advance_rstN (s : State) : (advance s).rstN = s.rstN := rfl
@[simp] theorem advance_program (s : State) : (advance s).program = s.program := rfl
@[simp] theorem advance_hostPos (s : State) : (advance s).hostPos = s.hostPos + 1 := rfl
@[simp] theorem advance_readLog (s : State) : (advance s).readLog = s.readLog := rfl
@[simp] theorem advance_delay (s : State) : (advance s).delay = s.delay := rfl
@[simp] theorem advance_draws (s : State) : (advance s).draws = s.draws := rfl

end Sys2Proof.Machine
end

