-- ==== Sys2Proof/Laws/Ops.lean ====
section
/-!
SUPPORT. One lemma for each shared operation that says everything it can do; the provers cite these instead of
unfolding the operation.
-/

namespace Sys2Proof.Machine

/-- A command that ends without a raise completes and changes nothing else (R233, R235). -/
theorem finish_eq (s : State) : finish s = .next { s with busy := false, done := true } := by
  simp [finish, complete]

/-- A raise sets `ERR` and the code (R233, R236). -/
theorem raiseError_eq (code : ErrCode) (s : State) (h : code ≠ .none) :
    raiseError code s = .next { s with busy := false, done := true, err := true, errcode := code } := by
  simp [raiseError, complete, h]

/-- A read at the port is the current value, or a draw that changes nothing but the count of draws. -/
theorem hostRead_cases (idx : BitVec 8) (s : State) :
    (hostRead idx s = (memRead s idx, s) ∧ s.rstN = true ∧ (s.busy = false ∨ readableBusy (regAt idx) = true)) ∨
    (hostRead idx s = (Config.freeWord s.draws, { s with draws := s.draws + 1 }) ∧
      (s.rstN = false ∨ (s.busy = true ∧ readableBusy (regAt idx) = false))) := by
  unfold hostRead drawWord
  by_cases h : (s.rstN && (!s.busy || readableBusy (regAt idx))) = true
  · rw [if_pos h]
    left
    simpa using h
  · rw [if_neg h]
    right
    refine ⟨rfl, ?_⟩
    cases hr : s.rstN <;> cases hb : s.busy <;> cases hg : readableBusy (regAt idx) <;> simp_all

/-- A write while busy is a soft reset or is dropped (R271). -/
theorem writeBusy_cases (reg : Reg) (v : Word) (s : State) :
    (isSoftReset reg v = true ∧ writeBusy reg v s = blockReset s) ∨
    (isSoftReset reg v = false ∧ writeBusy reg v s = { s with wdrop := true }) := by
  unfold writeBusy
  cases isSoftReset reg v <;> simp

/-- What one transition can be: held in reset, the engine running a command, the engine completing an illegal word, or
a turn of the host. -/
theorem turn_cases {s : State} {o : Host.Outcome State Fault Refusal} (h : turn s = o) :
    (s.rstN = false ∧ o = .next (blockReset (hostTurn s))) ∨
    (s.rstN = true ∧ engineTurn s = true ∧ ∃ i, decode s.pending = .ok i ∧ o = exec i s) ∨
    (s.rstN = true ∧ engineTurn s = true ∧ (∃ e, decode s.pending = .error e) ∧ o = raiseError .opc s) ∨
    (s.rstN = true ∧ engineTurn s = false ∧ o = .next (hostTurn (countTurn s))) := by
  unfold turn at h
  cases hr : s.rstN <;> simp only [hr, if_true, Bool.true_eq_false, if_false] at h
  · exact .inl ⟨rfl, h.symm⟩
  · cases he : engineTurn s <;> simp only [he, if_true, Bool.false_eq_true, if_false] at h
    · exact .inr (.inr (.inr ⟨rfl, rfl, h.symm⟩))
    · unfold engineStep at h
      cases hd : decode s.pending with
      | ok i => rw [hd] at h; exact .inr (.inl ⟨rfl, rfl, i, rfl, h.symm⟩)
      | error e => rw [hd] at h; exact .inr (.inr (.inl ⟨rfl, rfl, ⟨e, rfl⟩, h.symm⟩))

/-- The count of host turns touches the model's own field only. -/
theorem countTurn_eq (s : State) : countTurn s = { s with delay := (countTurn s).delay } := by
  unfold countTurn
  split <;> rfl

/-- The engine's turn needs a command in flight (R233). -/
theorem engineTurn_busy {s : State} (h : engineTurn s = true) : s.busy = true := by
  unfold engineTurn at h
  cases hb : s.busy <;> simp_all

/-- A block held in reset stays what it is (R261). -/
@[simp] theorem blockReset_idem (s : State) : blockReset (blockReset s) = blockReset s := rfl

/-- An event at `rst_n` leaves a pin that is already 1 and the block alone, or resets the block (R261). -/
theorem driveResetPin_cases (level : Bool) (s : State) :
    (s.rstN = true ∧ level = true ∧ driveResetPin level s = s) ∨
    ((s.rstN = false ∨ level = false) ∧ driveResetPin level s = blockReset { s with rstN := level }) := by
  unfold driveResetPin
  cases s.rstN <;> cases level <;> simp

/-- After the event the pin is at the level it was driven to (R261). -/
@[simp] theorem driveResetPin_rstN (level : Bool) (s : State) : (driveResetPin level s).rstN = level := by
  rcases driveResetPin_cases level s with ⟨h, rfl, e⟩ | ⟨-, e⟩
  · rw [e, h]
  · rw [e]; rfl

/-- The host's turn is one operation of its program, or nothing. -/
theorem hostTurn_cases (s : State) :
    (nextOp s = none ∧ hostTurn s = s) ∨ ∃ op, nextOp s = some op ∧ hostTurn s = hostOp op s := by
  unfold hostTurn
  cases nextOp s <;> simp

end Sys2Proof.Machine
end

