-- ==== Sys2Proof/Laws/Families.lean ====
section
/-!
SUPPORT. One lemma for each shared function of the command families: what it computes and what it leaves alone.
-/

namespace Sys2Proof.Machine

/-- What half a quarter round does to each word, for indices `a` and `d` that differ (R121). -/
theorem qrHalf_get (X : Vector Word 16) (a b d k : Fin 16) (n : Nat) (h : a ≠ d) :
    (qrHalf X a b d n)[k] =
      if k = d then rotl32 (X[d] ^^^ (X[a] + X[b])) n else if k = a then X[a] + X[b] else X[k] := by
  have hv : a.val ≠ d.val := fun e => h (Fin.ext e)
  simp only [qrHalf, Fin.getElem_fin, Vector.getElem_set, Fin.ext_iff]
  by_cases h1 : d.val = k.val
  · obtain rfl : d = k := Fin.ext h1
    simp [hv]
  · have h1' : ¬ k.val = d.val := fun e => h1 e.symm
    by_cases h2 : a.val = k.val
    · simp [h1, h1', h2]
    · have h2' : ¬ k.val = a.val := fun e => h2 e.symm
      simp [h1, h1', h2, h2']

/-- The feed-forward is word by word (R126). -/
theorem permff_get (X : Vector Word 16) (i : Nat) (h : i < 16) : (permff X)[i] = (perm20 X)[i] + X[i] := by
  simp only [permff, Vector.getElem_zipWith]

/-- The XOR loop writes `DOUT`, `KS`, `BCTR` and `KPOS` only (R158). -/
theorem xorBytes_frame (z : Bool) (n : Nat) (s : State) :
    xorBytes z n s =
      { s with
        dout := (xorBytes z n s).dout
        ks := (xorBytes z n s).ks
        bctr := (xorBytes z n s).bctr
        kpos := (xorBytes z n s).kpos } := by
  have ex : ∃ d k b p, xorBytes z n s = { s with dout := d, ks := k, bctr := b, kpos := p } := by
    induction n with
    | zero => exact ⟨_, s.ks, s.bctr, s.kpos, rfl⟩
    | succ n ih =>
      obtain ⟨d, k, b, p, e⟩ := ih
      simp only [xorBytes, e, xorByte, refill]
      split
      · exact ⟨_, _, _, _, rfl⟩
      · exact ⟨_, _, _, _, rfl⟩
  obtain ⟨d, k, b, p, e⟩ := ex
  rw [e]

/-- The XOR loop keeps `KPOS` at most 64, and keeps `KS` the block of the counter before `BCTR` while unused keystream
is held (R158). -/
theorem xorBytes_held (z : Bool) (n : Nat) (s : State) (h : s.kpos.toNat ≤ 64)
    (hk : s.kpos.toNat < 64 → s.ks = block s.sk (s.bctr - 1) s.n12) :
    (xorBytes z n s).kpos.toNat ≤ 64 ∧
    ((xorBytes z n s).kpos.toNat < 64 → (xorBytes z n s).ks = block s.sk ((xorBytes z n s).bctr - 1) s.n12) := by
  induction n with
  | zero => exact ⟨h, hk⟩
  | succ n ih =>
    have e := xorBytes_frame z n s
    simp only [xorBytes]
    generalize xorBytes z n s = u at *
    obtain ⟨i1, i2⟩ := ih
    unfold xorByte refill
    by_cases c : u.kpos = 64
    · have keys : u.sk = s.sk ∧ u.n12 = s.n12 := by
        rw [e]
        exact ⟨rfl, rfl⟩
      simp only [c, if_true]
      refine ⟨by decide, fun _ => ?_⟩
      rw [keys.1, keys.2]
      simp
    · have below : u.kpos.toNat ≠ 64 := fun e => c (BitVec.eq_of_toNat_eq e)
      simp only [c, if_false]
      refine ⟨?_, fun _ => i2 (by omega)⟩
      simp
      omega

/-- A field result is a canonical residue (R184). -/
theorem fieldAdd_lt (a b : Nat) : fieldAdd a b < fieldPrime := Nat.mod_lt _ (by decide)

/-- A field product is a canonical residue (R184). -/
theorem fieldMul_lt (a b : Nat) : fieldMul a b < fieldPrime := Nat.mod_lt _ (by decide)

/-- A fold is a canonical residue (R202). -/
theorem fold_lt (r h n : Nat) : fold r h n < fieldPrime := Nat.mod_lt _ (by decide)

/-- A canonical residue fits the 130-bit registers. -/
theorem residue_fits {v : Nat} (h : v < fieldPrime) : (BitVec.ofNat 130 v).toNat = v := by
  have : fieldPrime < 2 ^ 130 := by decide
  simp only [BitVec.toNat_ofNat]
  omega

/-- The comparator says exactly whether the sequences are equal (R208). -/
theorem ctEq_iff (a b : List Byte) (h : a.length = b.length) : ctEq a b = true ↔ a = b := by
  have acc : ∀ (l : List Byte) (d : Byte), l.foldl (fun diff x => diff ||| x) d = 0 ↔ d = 0 ∧ ∀ x ∈ l, x = 0 := by
    intro l
    induction l with
    | nil => simp
    | cons x xs ih =>
      intro d
      simp only [List.foldl_cons, ih, List.mem_cons, forall_eq_or_imp]
      have : d ||| x = 0 ↔ d = 0 ∧ x = 0 := by
        constructor
        · intro e
          constructor <;> ext i hi <;> have := congrArg (·.getLsbD i) e <;> simp_all [BitVec.getLsbD_eq_getElem]
        · rintro ⟨rfl, rfl⟩
          rfl
      rw [this, and_assoc]
  simp only [ctEq, beq_iff_eq, acc, true_and]
  induction a generalizing b with
  | nil => cases b <;> simp_all
  | cons x xs ih =>
    cases b with
    | nil => simp at h
    | cons y ys =>
      have := ih ys (by simpa using h)
      have e : x ^^^ y = 0 ↔ x = y := BitVec.xor_eq_zero_iff
      simp only [List.zipWith_cons_cons, List.mem_cons, forall_eq_or_imp, this, List.cons.injEq, e]

end Sys2Proof.Machine
end

