-- ==== Sys2Proof/Laws/Exec.lean ====
section
/-!
SUPPORT. What every command does outside its own registers, said once: it completes, and it leaves the build, the
interrupt enable, the host's fields and the model's own fields alone.
-/

namespace Sys2Proof.Machine

/-- The fields no command touches but by its completion: those of `t` agree with those of `s`, and the command has
completed. -/
structure Completes (s t : State) : Prop where
  busy : t.busy = false
  done : t.done = true
  variant : t.variant = s.variant
  ie : t.ie = s.ie
  wdrop : t.wdrop = s.wdrop
  pending : t.pending = s.pending
  rstN : t.rstN = s.rstN
  program : t.program = s.program
  hostPos : t.hostPos = s.hostPos
  readLog : t.readLog = s.readLog
  delay : t.delay = s.delay
  draws : t.draws = s.draws

/-- Completion with any code, of a state that agrees with `s` on those fields. -/
theorem completes_complete (code : ErrCode) {s t : State} (h : t = { s with
    eq := t.eq, cvalid := t.cvalid, cstream := t.cstream, craw := t.craw, avalid := t.avalid, pphase := t.pphase,
    tvalid := t.tvalid, bctr := t.bctr, kpos := t.kpos, st := t.st, dout := t.dout, hout := t.hout, fr := t.fr,
    tag := t.tag, h := t.h, r := t.r, pad := t.pad, sk := t.sk, n12 := t.n12, ks := t.ks, ckey := t.ckey,
    cnonce := t.cnonce, cctr0 := t.cctr0 }) : Completes s (complete code t) := by
  rw [h]
  exact ⟨rfl, rfl, rfl, rfl, rfl, rfl, rfl, rfl, rfl, rfl, rfl, rfl⟩

/-- Every command answers the completion, with some code, of a state that agrees with the one it ran on outside the
registers the engine writes (R58, R233). -/
theorem exec_completes (i : Instr) (s : State) : ∃ code t, exec i s = .next (complete code t) ∧ Completes s (complete code t) := by
  cases i <;>
    simp only [exec, execNop, execQr, execColround, execDiaground, execDoubleround, execPerm, execPermff, execHchacha,
      execCInit, execCStart, execCXor, execFadd, execFmul, execPInit, execPStart, execPBlock, execPFinal, execTagcmp,
      finish, raiseError]
  case cXor len z =>
    split_ifs
    · exact ⟨_, _, rfl, completes_complete _ rfl⟩
    · exact ⟨_, _, rfl, completes_complete _ rfl⟩
    · exact ⟨_, _, rfl, completes_complete _ rfl⟩
    · refine ⟨_, _, rfl, completes_complete _ ?_⟩
      have e := xorBytes_frame z len s
      generalize xorBytes z len s = t at e
      rw [e]
  all_goals (try split_ifs) <;> exact ⟨_, _, rfl, completes_complete _ rfl⟩

end Sys2Proof.Machine
end

