-- ==== Sys2Proof/Laws/PerInstr.lean ====
section
/-!
SUPPORT. Statements about every command as it is encoded, one lemma per constructor: the encoded word matches its row
of the opcode map (spec/30_encoding.md R97, R100).
-/

namespace Sys2Proof.Laws

/-- The mask R97's table gives a command's row. -/
def rowMask : Instr → Word
  | .qr _ _ _ _ => 0xFF0000FF#32
  | .cInit _ _ _ => 0xFE0000FF#32
  | .cXor _ _ => 0xFFFF00FF#32
  | .pInit _ => 0xFFFF00FF#32
  | .pBlock _ => 0xFFFF80FF#32
  | .tagcmp _ => 0xFFFF80FF#32
  | _ => 0xFFFFFFFF#32

/-- The match value R97's table gives a command's row. -/
def rowMatch : Instr → Word
  | .nop => 0x00000000#32
  | .qr _ _ _ _ => 0x00000001#32
  | .colround => 0x00000002#32
  | .diaground => 0x00000003#32
  | .doubleround => 0x00000004#32
  | .perm => 0x00000005#32
  | .permff => 0x00000006#32
  | .hchacha => 0x00000010#32
  | .cInit _ _ _ => 0x00000020#32
  | .cStart => 0x00000021#32
  | .cXor _ _ => 0x00000022#32
  | .fadd => 0x00000030#32
  | .fmul => 0x00000031#32
  | .pInit _ => 0x00000040#32
  | .pStart => 0x00000041#32
  | .pBlock _ => 0x00000042#32
  | .pFinal => 0x00000043#32
  | .tagcmp _ => 0x00000044#32

namespace EncodeMatchesRow

/-- The encoded word matches its row: (w & mask) = match. -/
def Statement (i : Instr) : Prop := encode i &&& rowMask i = rowMatch i

theorem nop : Statement .nop := by unfold Statement; decide

theorem qr (a b c d : Fin 16) : Statement (.qr a b c d) := by
  apply BitVec.eq_of_getLsbD_eq
  intro k hk
  simp only [encode, rowMask, rowMatch, BitVec.getLsbD_and, BitVec.getLsbD_append]
  interval_cases k <;> simp

theorem colround : Statement .colround := by unfold Statement; decide

theorem diaground : Statement .diaground := by unfold Statement; decide

theorem doubleround : Statement .doubleround := by unfold Statement; decide

theorem perm : Statement .perm := by unfold Statement; decide

theorem permff : Statement .permff := by unfold Statement; decide

theorem hchacha : Statement .hchacha := by unfold Statement; decide

theorem cInit (klen nlen : Nat) (raw : Bool) : Statement (.cInit klen nlen raw) := by
  apply BitVec.eq_of_getLsbD_eq
  intro k hk
  simp only [encode, rowMask, rowMatch, BitVec.getLsbD_and, BitVec.getLsbD_append]
  interval_cases k <;> simp

theorem cStart : Statement .cStart := by unfold Statement; decide

theorem cXor (len : Nat) (z : Bool) : Statement (.cXor len z) := by
  apply BitVec.eq_of_getLsbD_eq
  intro k hk
  simp only [encode, rowMask, rowMatch, BitVec.getLsbD_and, BitVec.getLsbD_append]
  interval_cases k <;> simp

theorem fadd : Statement .fadd := by unfold Statement; decide

theorem fmul : Statement .fmul := by unfold Statement; decide

theorem pInit (klen : Nat) : Statement (.pInit klen) := by
  apply BitVec.eq_of_getLsbD_eq
  intro k hk
  simp only [encode, rowMask, rowMatch, BitVec.getLsbD_and, BitVec.getLsbD_append]
  interval_cases k <;> simp

theorem pStart : Statement .pStart := by unfold Statement; decide

theorem pBlock (len : Nat) : Statement (.pBlock len) := by
  apply BitVec.eq_of_getLsbD_eq
  intro k hk
  simp only [encode, rowMask, rowMatch, BitVec.getLsbD_and, BitVec.getLsbD_append]
  interval_cases k <;> simp

theorem pFinal : Statement .pFinal := by unfold Statement; decide

theorem tagcmp (len : Nat) : Statement (.tagcmp len) := by
  apply BitVec.eq_of_getLsbD_eq
  intro k hk
  simp only [encode, rowMask, rowMatch, BitVec.getLsbD_and, BitVec.getLsbD_append]
  interval_cases k <;> simp

end EncodeMatchesRow

end Sys2Proof.Laws
end

