-- ==== Sys2Proof/Laws/Program.lean ====
section
/-!
SUPPORT. What the host's own computations give: the bytes `rdbytes` denotes (spec/30_encoding.md R107) and the length
field of TAGCMP for a supplied tag (spec/45_auth.md R207, R210).
-/

namespace Sys2Proof.Machine

@[simp] theorem wordBytes_length (w : Word) : (wordBytes w).length = 4 := rfl

/-- Four bytes for each word. -/
@[simp] theorem flatMap_wordBytes_length (ws : List Word) : (ws.flatMap wordBytes).length = 4 * ws.length := by
  induction ws with
  | nil => rfl
  | cons w ws ih => simp [ih]; omega

/-- Byte k of the words' bytes is byte k mod 4 of word k div 4 (R14). -/
theorem flatMap_wordBytes_get (ws : List Word) (k : Nat) (h : k < 4 * ws.length) :
    (ws.flatMap wordBytes)[k]? = some (wordByte (ws[k / 4]'(by omega)) (k % 4)) := by
  induction ws generalizing k with
  | nil => simp at h
  | cons w ws ih =>
    match k with
    | 0 => rfl
    | 1 => rfl
    | 2 => rfl
    | 3 => rfl
    | j + 4 =>
      have hj : j < 4 * ws.length := by simp at h; omega
      have e : (j + 4) / 4 = j / 4 + 1 := by omega
      simpa [wordBytes, e] using ih j hj

/-- The log's newest values, as many as `rdbytes NAME, n` reads, are what its bytes are taken from (R107). -/
theorem rdbytesValue_eq (n : Nat) (ws log : List Word) (h : ws.length = (n + 3) / 4) :
    rdbytesValue n (ws.reverse ++ log) = (ws.flatMap wordBytes).take n := by
  simp [rdbytesValue, ← h]

/-- `rdbytes NAME, n` makes ceil(n/4) reads (R107). -/
@[simp] theorem rdbytes_length (offset n : Nat) : (rdbytes offset n).length = (n + 3) / 4 := by
  simp [rdbytes]

/-- The length field of TAGCMP holds the host's length (R94, R207). -/
theorem tagcmpLength_fits (n : Nat) : (Instr.tagcmp (tagcmpLength n)).wellFormed = true := by
  unfold tagcmpLength
  split <;> simp_all [Instr.wellFormed, lenFits]

/-- It is 16 exactly for a tag of 16 bytes (R207). -/
theorem tagcmpLength_eq_16 (n : Nat) : tagcmpLength n = 16 ↔ n = 16 := by
  unfold tagcmpLength
  split <;> omega

end Sys2Proof.Machine
end

