-- ==== Sys2Proof/Laws/Window.lean ====
section
/-!
SUPPORT. The register window: the byte offset of each register in spec/10_state.md R23's table, and that the map from
word indices to registers inverts it.
-/

namespace Sys2Proof.Machine

/-- The byte offset R23's table gives a register; a reserved offset has none. -/
def regOffset : Reg → Option Nat
  | .id => some 0x000
  | .version => some 0x004
  | .cap => some 0x008
  | .ctrl => some 0x00C
  | .status => some 0x010
  | .cmd => some 0x014
  | .ctrin => some 0x018
  | .bctr => some 0x01C
  | .kpos => some 0x020
  | .keyin i => some (0x040 + 4 * i)
  | .noncein i => some (0x060 + 4 * i)
  | .st i => some (0x080 + 4 * i)
  | .din i => some (0x0C0 + 4 * i)
  | .dout i => some (0x100 + 4 * i)
  | .hout i => some (0x140 + 4 * i)
  | .pkeyin i => some (0x160 + 4 * i)
  | .fa i => some (0x180 + 4 * i)
  | .fb i => some (0x1A0 + 4 * i)
  | .fr i => some (0x1C0 + 4 * i)
  | .tag i => some (0x1E0 + 4 * i)
  | .tagin i => some (0x1F0 + 4 * i)
  | .h i => some (0x200 + 4 * i)
  | .r i => some (0x220 + 4 * i)
  | .pad i => some (0x230 + 4 * i)
  | .sk i => some (0x240 + 4 * i)
  | .n12 i => some (0x260 + 4 * i)
  | .ks i => some (0x280 + 4 * i)
  | .ckey i => some (0x2C0 + 4 * i)
  | .cnonce i => some (0x2E0 + 4 * i)
  | .cctr0 => some 0x2F8
  | .reserved => none

/-- Every listed register stands at its offset's word index. -/
theorem regAt_regOffset (r : Reg) (off : Nat) (h : regOffset r = some off) : regAt (idxOf off) = r := by
  cases r <;> simp only [regOffset, Option.some.injEq, reduceCtorEq] at h <;> subst h
  all_goals first
    | decide
    | (rename_i i; revert i; decide)

/-- A word index whose register is listed is that register's offset: no two indices name one register. -/
theorem idxOf_regOffset (idx : BitVec 8) (off : Nat) (h : regOffset (regAt idx) = some off) : idxOf off = idx := by
  revert off
  revert idx
  decide +kernel

end Sys2Proof.Machine
end

