-- ==== Sys2Proof/Machine/Assembler.lean ====
section
/-!
DEFINITION. The text of commands and host programs (spec/30_encoding.md R101 to R108): one line of text gives a list of
host operations, or nothing where the assembler refuses it. A value that does not fit its field is refused, never
truncated (R101).
-/

namespace Sys2Proof.Machine

/-- The value of a decimal or hexadecimal digit. -/
def digitValue (base : Nat) (c : Char) : Option Nat :=
  let n := c.toNat
  let d :=
    if 48 ≤ n ∧ n ≤ 57 then n - 48
    else if 97 ≤ n ∧ n ≤ 102 then n - 87
    else if 65 ≤ n ∧ n ≤ 70 then n - 55
    else 16
  if d < base then some d else none

/-- The number a run of digits denotes, after the digits already read. -/
def digitsValue (base : Nat) : List Char → Nat → Option Nat
  | [], acc => some acc
  | c :: cs, acc =>
    match digitValue base c with
    | some d => digitsValue base cs (base * acc + d)
    | none => none

/-- "all numbers decimal or `0x` hexadecimal" (R101). -/
def parseNumber : List Char → Option Nat
  | [] => none
  | '0' :: 'x' :: c :: cs => digitsValue 16 (c :: cs) 0
  | c :: cs => digitsValue 10 (c :: cs) 0

/-- The parts of a text between separators. -/
def splitAtChar (sep : Char) : List Char → List (List Char)
  | [] => [[]]
  | c :: cs =>
    match splitAtChar sep cs with
    | [] => [[c]]
    | part :: parts => if c = sep then [] :: part :: parts else (c :: part) :: parts

/-- Spaces at the start dropped. -/
def dropSpaces : List Char → List Char
  | ' ' :: cs => dropSpaces cs
  | cs => cs

/-- Spaces at both ends dropped. -/
def trim (cs : List Char) : List Char := (dropSpaces (dropSpaces cs).reverse).reverse

/-- The first word of a line, and the rest of it. -/
def firstWord (cs : List Char) : String × List Char :=
  let cs := trim cs
  (String.ofList (cs.takeWhile (· ≠ ' ')), trim (cs.dropWhile (· ≠ ' ')))

/-- Every element parsed, or none. -/
def parseAll {α β : Type} (f : α → Option β) : List α → Option (List β)
  | [] => some []
  | x :: xs =>
    match f x, parseAll f xs with
    | some y, some ys => some (y :: ys)
    | _, _ => none

/-- The comma-separated fields of a command (R101); no text means no field. -/
def parseFields (cs : List Char) : Option (List Nat) :=
  if cs = [] then some [] else parseAll (fun part => parseNumber (trim part)) (splitAtChar ',' cs)

/-- An index of a state word; an index > 15 is refused (R101). -/
def parseIndex (n : Nat) : Option (Fin 16) := if h : n < 16 then some ⟨n, h⟩ else none

/-- A mnemonic and its fields (R101): absent optional operands are 0; a third operand of c_init sets raw exactly when
it equals 1; the `z` of c_xor is one bit. Wrong field counts are refused. -/
def commandOf (mnemonic : String) (fields : List Nat) : Option Instr :=
  match mnemonic, fields with
  | "nop", [] => some .nop
  | "qr", [a, b, c, d] =>
    match parseIndex a, parseIndex b, parseIndex c, parseIndex d with
    | some a, some b, some c, some d => some (.qr a b c d)
    | _, _, _, _ => none
  | "colround", [] => some .colround
  | "diaground", [] => some .diaground
  | "doubleround", [] => some .doubleround
  | "perm", [] => some .perm
  | "permff", [] => some .permff
  | "hchacha", [] => some .hchacha
  | "c_init", [klen, nlen] => some (.cInit klen nlen false)
  | "c_init", [klen, nlen, raw] => some (.cInit klen nlen (decide (raw = 1)))
  | "c_start", [] => some .cStart
  | "c_xor", [len] => some (.cXor len false)
  | "c_xor", [len, z] => if z ≤ 1 then some (.cXor len (decide (z = 1))) else none
  | "fadd", [] => some .fadd
  | "fmul", [] => some .fmul
  | "p_init", [klen] => some (.pInit klen)
  | "p_start", [] => some .pStart
  | "p_block", [len] => some (.pBlock len)
  | "p_final", [] => some .pFinal
  | "tagcmp", [len] => some (.tagcmp len)
  | _, _ => none

/-- A command of R101: refused unless every operand fits its field. -/
def parseCommand (cs : List Char) : Option Instr :=
  let (mnemonic, rest) := firstWord cs
  match parseFields rest with
  | some fields =>
    match commandOf mnemonic fields with
    | some i => if i.wellFormed then some i else none
    | none => none
  | none => none

/-- The offset of a register name of R23 and how many words it has. -/
def nameTable : List (String × Nat × Nat) :=
  [ ("ID", 0x000, 1), ("VERSION", 0x004, 1), ("CAP", 0x008, 1), ("CTRL", 0x00C, 1), ("STATUS", 0x010, 1),
    ("CMD", 0x014, 1), ("CTRIN", 0x018, 1), ("BCTR", 0x01C, 1), ("KPOS", 0x020, 1), ("KEYIN", 0x040, 8),
    ("NONCEIN", 0x060, 6), ("S", 0x080, 16), ("DIN", 0x0C0, 16), ("DOUT", 0x100, 16), ("HOUT", 0x140, 8) ] ++
  [ ("PKEYIN", 0x160, 8), ("FA", 0x180, 5), ("FB", 0x1A0, 5), ("FR", 0x1C0, 5), ("TAG", 0x1E0, 4),
    ("TAGIN", 0x1F0, 4), ("H", 0x200, 5), ("R", 0x220, 4), ("PAD", 0x230, 4), ("SK", 0x240, 8), ("N12", 0x260, 3),
    ("KS", 0x280, 16), ("CKEY", 0x2C0, 8), ("CNONCE", 0x2E0, 6), ("CCTR0", 0x2F8, 1) ]

/-- Look a register name up. -/
def lookupName (name : String) : List (String × Nat × Nat) → Option (Nat × Nat)
  | [] => none
  | (n, off, count) :: rest => if n = name then some (off, count) else lookupName name rest

/-- `OFF` (R102): a byte offset, a register name, or `NAME[i]`, the offset of NAME plus 4·i. -/
def parseOffset (cs : List Char) : Option Nat :=
  match parseNumber cs with
  | some n => if n < 0x400 ∧ n % 4 = 0 then some n else none
  | none =>
    match splitAtChar '[' cs with
    | [name] => (lookupName (String.ofList name) nameTable).map (·.1)
    | [name, idx] =>
      match lookupName (String.ofList name) nameTable, idx.reverse with
      | some (off, count), ']' :: digits =>
        match parseNumber digits.reverse with
        | some i => if i < count then some (off + 4 * i) else none
        | none => none
      | _, _ => none
    | _ => none

/-- A 32-bit value. -/
def parseWord (cs : List Char) : Option Word :=
  match parseNumber cs with
  | some v => if v < 2 ^ 32 then some (BitVec.ofNat 32 v) else none
  | none => none

/-- Hex bytes, two digits each; spaces between them are ignored (R106). -/
def parseHexBytes : List Char → Option (List Byte)
  | [] => some []
  | ' ' :: cs => parseHexBytes cs
  | [_] => none
  | a :: b :: cs =>
    match digitValue 16 a, digitValue 16 b, parseHexBytes cs with
    | some x, some y, some rest => some (BitVec.ofNat 8 (16 * x + y) :: rest)
    | _, _, _ => none

/-- A command text, or the number of a raw command word as the programs of spec/95_test_vectors.md write it (log 14). -/
def parseCmdWord (cs : List Char) : Option Word :=
  match parseCommand cs with
  | some i => some (encode i)
  | none => parseWord cs

/-- A register name with its number of bytes, for `wrbytes` and `rdbytes`. -/
def parseName (cs : List Char) : Option (Nat × Nat) :=
  (lookupName (String.ofList cs) nameTable).map fun p => (p.1, 4 * p.2)

/-- One line of a host program (R102 to R108). -/
def parseLine (line : List Char) : Option (List HostOp) :=
  let (word, rest) := firstWord line
  match word, (splitAtChar ',' rest).map trim with
  | "rd", [off] => (parseOffset off).map fun o => [rdOff o]
  | "wr", [off, v] =>
    match parseOffset off, parseWord v with
    | some o, some w => some [wrOff o w]
    | _, _ => none
  | "cmd", _ => (parseCmdWord rest).map fun w => [cmdWord w]
  | "run", _ => (parseCmdWord rest).map fun w => [cmdWord w, .wait]
  | "wait", [[]] => some [.wait]
  | "clr", [[]] => some [clr]
  | "wrbytes", [name, hex] =>
    match parseName name, parseHexBytes hex with
    | some (o, size), some bs => if bs.length ≤ size then some (wrbytes o bs) else none
    | _, _ => none
  | "rdbytes", [name, n] =>
    match parseName name, parseNumber n with
    | some (o, size), some k => if k ≤ size then some (rdbytes o k) else none
    | _, _ => none
  | _, _ => none

/-- A whole host program, line by line; refused as a whole when a line is. -/
def parseProgram (lines : List String) : Option (List HostOp) :=
  (parseAll (fun l => parseLine l.toList) lines).map List.flatten

end Sys2Proof.Machine
end

