-- ==== Sys2Proof/Tests/Slice0.lean ====
section
/-!
SUPPORT. Tests, each on one step or one decode, with expected values from spec/95_test_vectors.md (the vector is named
in the comment) or from a rule's own example.
-/

-- One theorem at a time: the kernel evaluations below are long, and many pending at once exhaust the checker's threads.
set_option Elab.async false

open Sys2Proof Sys2Proof.Machine

namespace Sys2Proof.Tests

/-- A field of the next state, if the outcome is one. -/
def got {α : Type} (o : Host.Outcome State Fault Refusal) (f : State → α) : Option α :=
  match o with
  | .next t => some (f t)
  | .fault _ => none
  | .refused _ => none

/-- The machine after reset with the default variant. -/
abbrev s0 : State := State.reset

/-- The same machine built with DOC_LITERAL. -/
abbrev d0 : State := State.resetFor .docLiteral

/-- `S[i]` = i. -/
def counting : State := { s0 with st := #v[0, 1, 2, 3, 4, 5, 6, 7, 8, 9, 10, 11, 12, 13, 14, 15] }

/-- The key 00 01 .. 1f. -/
def key1f : Vector Word 8 :=
  #v[0x03020100, 0x07060504, 0x0b0a0908, 0x0f0e0d0c, 0x13121110, 0x17161514, 0x1b1a1918, 0x1f1e1d1c]

/-- A started stream of V2.5 (raw mode, counter 1), its first plaintext chunk staged. -/
def ladies : State :=
  { s0 with
    cvalid := true, craw := true, cstream := true, kpos := 64, bctr := 1, sk := key1f, n12 := #v[0, 0x4a000000, 0]
    din := #v[0x6964614C, 0x61207365, 0x4720646E, 0x6C746E65, 0x6E656D65, 0x20666F20, 0x20656874, 0x73616C63,
      0x666F2073, 0x39392720, 0x6649203A, 0x63204920, 0x646C756F, 0x66666F20, 0x79207265, 0x6F20756F] }

/-- The authenticator of V2.8 after P_START, "Cryptographic Fo" staged, in the RFC8439 variant. -/
def crypto : State :=
  { s0 with
    avalid := true, pphase := .active
    r := 0x0806d5400e52447c036d555408bed685, pad := 0x1bf54941aff6bf4afdb20dfb8a800301
    din := #v[0x70797243, 0x72676F74, 0x69687061, 0x6F462063, 0, 0, 0, 0, 0, 0, 0, 0, 0, 0, 0, 0] }

/-- The same under DOC_LITERAL (V6.2). -/
def cryptoDoc : State := { crypto with variant := .docLiteral, r := 0x0c06d5420e52447f076d55570cbed685 }

/-- The staged key of V2.8. -/
def polyKey : Vector Word 8 :=
  #v[0x78BED685, 0x336D5557, 0xFE52447F, 0xA806D542, 0x8A800301, 0xFDB20DFB, 0xAFF6BF4A, 0x1BF54941]

/-- A state with a valid tag (P3's end). -/
def tagged : State :=
  { s0 with
    avalid := true, pphase := .done, tvalid := true
    tag := 0xa927010caf8b2bc2c6365130c11d06a8, tagin := 0xa927010caf8b2bc2c6365130c11d06a8 }

/-- A command in flight, the engine's turn next. -/
def inFlight (w : Word) : State := acceptedNow w s0

/-- A command in flight with one host turn left before the engine, and a program. -/
def waiting (ops : List HostOp) : State := { inFlight 0x00000005#32 with delay := 1, program := ops }

/-! ## Well-formedness: a term each check refuses -/

theorem test_wf_klen_256 : (Instr.cInit 256 24 false).wellFormed = false := by decide

theorem test_wf_nlen_256 : (Instr.cInit 32 256 false).wellFormed = false := by decide

theorem test_wf_xor_len_128 : (Instr.cXor 128 false).wellFormed = false := by decide

theorem test_wf_pinit_klen_256 : (Instr.pInit 256).wellFormed = false := by decide

theorem test_wf_pblock_len_128 : (Instr.pBlock 128).wellFormed = false := by decide

theorem test_wf_tagcmp_len_128 : (Instr.tagcmp 128).wellFormed = false := by decide

theorem test_wf_edges : (Instr.cInit 255 255 true).wellFormed ∧ (Instr.cXor 127 true).wellFormed := by decide

/-! ## Decoding: words of section 3.1 -/

theorem test_decode_nop : decode 0x00000000#32 = .ok .nop := by rfl

theorem test_decode_qr : decode 0x00D87201#32 = .ok (.qr 2 7 8 13) := by rfl

theorem test_decode_qr_aliased : decode 0x00FFFF01#32 = .ok (.qr 15 15 15 15) := by rfl

theorem test_decode_rounds :
    decode 0x00000002#32 = .ok .colround ∧ decode 0x00000003#32 = .ok .diaground ∧
    decode 0x00000004#32 = .ok .doubleround ∧ decode 0x00000005#32 = .ok .perm ∧
    decode 0x00000006#32 = .ok .permff := ⟨rfl, rfl, rfl, rfl, rfl⟩

theorem test_decode_hchacha : decode 0x00000010#32 = .ok .hchacha := by rfl

theorem test_decode_c_init : decode 0x00181020#32 = .ok (.cInit 16 24 false) := by rfl

theorem test_decode_c_init_raw : decode 0x010C2020#32 = .ok (.cInit 32 12 true) := by rfl

theorem test_decode_c_start : decode 0x00000021#32 = .ok .cStart := by rfl

theorem test_decode_c_xor : decode 0x0000FF22#32 = .ok (.cXor 127 true) ∧ decode 0x00004122#32 = .ok (.cXor 65 false) :=
  ⟨rfl, rfl⟩

theorem test_decode_field : decode 0x00000030#32 = .ok .fadd ∧ decode 0x00000031#32 = .ok .fmul := ⟨rfl, rfl⟩

theorem test_decode_p_init : decode 0x00001F40#32 = .ok (.pInit 31) := by rfl

theorem test_decode_p_start : decode 0x00000041#32 = .ok .pStart := by rfl

theorem test_decode_p_block : decode 0x00001142#32 = .ok (.pBlock 17) := by rfl

theorem test_decode_p_final : decode 0x00000043#32 = .ok .pFinal := by rfl

theorem test_decode_tagcmp : decode 0x00000F44#32 = .ok (.tagcmp 15) := by rfl

theorem test_decode_must_be_zero :
    decode 0x00000100#32 = .error .mustBeZero ∧ decode 0x01321001#32 = .error .mustBeZero ∧
    decode 0x02182020#32 = .error .mustBeZero ∧ decode 0x00010022#32 = .error .mustBeZero ∧
    decode 0x00012040#32 = .error .mustBeZero ∧ decode 0x01002040#32 = .error .mustBeZero ∧
    decode 0x00009042#32 = .error .mustBeZero ∧ decode 0x00008044#32 = .error .mustBeZero :=
  ⟨rfl, rfl, rfl, rfl, rfl, rfl, rfl, rfl⟩

theorem test_decode_unassigned :
    decode 0x00000007#32 = .error .unassignedOpcode ∧ decode 0x00000045#32 = .error .unassignedOpcode ∧
    decode 0xFFFFFFFF#32 = .error .unassignedOpcode := ⟨rfl, rfl, rfl⟩

/-- The words of 4.1 and 4.3 to 4.5's examples, encoded. -/
theorem test_encode :
    encode (.qr 0 1 2 3) = 0x00321001#32 ∧ encode (.cInit 32 24 false) = 0x00182020#32 ∧
    encode (.cXor 64 true) = 0x0000C022#32 ∧ encode (.pBlock 2) = 0x00000242#32 ∧
    encode (.tagcmp 16) = 0x00001044#32 ∧ encode (.pInit 32) = 0x00002040#32 := by decide

/-! ## The permutation core -/

/-- V2.1, run as the first step after reset. -/
theorem test_qr_rfc :
    got (step ({ s0 with
        st := #v[0x11111111, 0x01020304, 0x9b8d6f43, 0x01234567, 0, 0, 0, 0, 0, 0, 0, 0, 0, 0, 0, 0] }.withFetchWord 32
          0x00321001))
      (fun t => (t.st[0], t.st[1], t.st[2], t.st[3])) =
      some (0xea2a92f4, 0xcb1cf8ce, 0x4581472e, 0x5881c4bb) := by decide +kernel

/-- V3.3: an aliased quarter round. -/
theorem test_qr_aliased :
    got (exec (.qr 0 1 0 1) { s0 with st := (s0.st.set 0 1).set 1 2 }) (fun t => (t.st[0], t.st[1])) =
      some (0x01013303, 0x00980180) := by decide +kernel

/-- R122's example. -/
theorem test_colround :
    got (exec .colround counting) (·.st) =
      some #v[0x8000c004, 0xb000c006, 0x6000c008, 0x5000c00a, 0x64624444, 0xe5e35cdd, 0x63643533, 0xe2e52daa,
        0x08c80488, 0x0bcb06b9, 0x06c6086a, 0x05c50a5b, 0x08c00480, 0x0bc006b0, 0x06c00860, 0x05c00a50] := by
  decide +kernel

/-- R123's example. -/
theorem test_diaground :
    got (exec .diaground counting) (·.st) =
      some #v[0xa000f005, 0xb000d007, 0x4000f009, 0x9000d007, 0xecebcccc, 0x7d7ad555, 0xedebdddd, 0x7a7ca422,
        0x04f40948, 0x09d90799, 0x0afa05aa, 0x0bdb07bb, 0x0bd007b0, 0x04f00940, 0x09d00790, 0x0af005a0] := by
  decide +kernel

/-- R124's example. -/
theorem test_doubleround :
    got (exec .doubleround counting) (·.st) =
      some #v[0xa9295c6a, 0xb471be7a, 0x38e65ec4, 0x74348b87, 0xf1ad76c6, 0x7b44627b, 0x946682b0, 0xf12f4910,
        0xd7e22f80, 0x3232ddd4, 0xb5b3b74d, 0xc0240444, 0xc8a5de45, 0xe417e1d3, 0x1a392478, 0x983c4ebf] := by
  decide +kernel

/-- R125's example. -/
theorem test_perm :
    got (exec .perm counting) (·.st) =
      some #v[0x48e90081, 0xf390518c, 0x224b1422, 0x0e74bdb7, 0x888688d2, 0x108e96f4, 0x1de13d82, 0x71bc3e28,
        0x281ff786, 0x66900ebd, 0xd3bfbe82, 0x815f33ee, 0x665aaeb4, 0x7485a165, 0x61889ce7, 0x94255e20] := by
  decide +kernel

/-- R126's example. -/
theorem test_permff :
    got (exec .permff counting) (·.st) =
      some #v[0x48e90081, 0xf390518d, 0x224b1424, 0x0e74bdba, 0x888688d6, 0x108e96f9, 0x1de13d88, 0x71bc3e2f,
        0x281ff78e, 0x66900ec6, 0xd3bfbe8c, 0x815f33f9, 0x665aaec0, 0x7485a172, 0x61889cf5, 0x94255e2f] := by
  decide +kernel

/-- Section 3.7: `run nop` from reset leaves `STATUS` = 0x00000002. -/
theorem test_nop_status : got (step (s0.withFetchWord 32 0)) statusWord = some 0x00000002#32 := by decide +kernel

/-! ## Subkey derivation and the cipher -/

/-- V2.6. -/
theorem test_hchacha :
    got (exec .hchacha { s0 with
        keyin := key1f, noncein := #v[0x09000000, 0x4a000000, 0x00000000, 0x27594131, 0, 0] }) (·.hout) =
      some #v[0x423b4182, 0xfe7bb227, 0x50420ed3, 0x737d878a, 0xd5e4f9a0, 0x53a8748a, 0x13c42ec1, 0xdcecd326] := by
  decide +kernel

/-- V4.7: a good construction's `STATUS`. -/
theorem test_c_init_raw_status :
    got (step (s0.withFetchWord 32 0x010C2020)) statusWord = some 0x00000502#32 := by decide +kernel

/-- V4.7: a failed construction destroys a started object. -/
theorem test_c_init_destroys :
    got (exec (.cInit 32 16 false) { s0 with cvalid := true, cstream := true }) statusWord = some 0x00000016#32 := by
  decide +kernel

/-- V4.1: `SK` and `N12` of the DOC0 scenario. -/
theorem test_c_start :
    got (exec .cStart { s0 with
        cvalid := true, ckey := Vector.replicate 8 0x01010101, cnonce := Vector.replicate 6 0x02020202 })
      (fun t => (t.sk, t.n12, t.kpos)) =
      some (#v[0xbadb6bab, 0x32d1ad00, 0x555d4dfc, 0xa2de6a63, 0xe4968c7a, 0xfbba5d3d, 0x0ede172d, 0xf193ac79],
        #v[0x00000000, 0x02020202, 0x02020202], 64) := by decide +kernel

/-- V4.7: C_START without an object. -/
theorem test_c_start_noinit : got (step (s0.withFetchWord 32 0x21)) statusWord = some 0x00000026#32 := by
  decide +kernel

/-- V2.5: the first 64 ciphertext bytes. -/
theorem test_c_xor_rfc :
    got (exec (.cXor 64 false) ladies) (fun t => (t.dout, t.bctr, t.kpos)) =
      some (#v[0x9a352e6e, 0x80f96825, 0x2807ba41, 0x81690ddd, 0xec7a7ee9, 0xc260431d, 0xccaf270a, 0x0bae9ffd,
        0xc5651bf9, 0xab334752, 0xab3d598f, 0x57b362cd, 0x24d63916, 0xab5251e6, 0x350c538f, 0xd861089f], 2, 64) := by
  decide +kernel

/-- V4.7: `c_xor 65` reports `E_LEN` before `E_NOINIT`. -/
theorem test_c_xor_len_first : got (exec (.cXor 65 false) s0) (·.errcode) = some .len := by decide +kernel

/-! ## Field arithmetic -/

/-- 3.5: (2^130 - 1) + (2^130 - 1) gives 8. -/
theorem test_fadd_unreduced :
    got (exec .fadd { s0 with fa := BitVec.allOnes 130, fb := BitVec.allOnes 130 }) (·.fr) = some 8 := by decide +kernel

/-- P4: `val(FA)` = p - 1 and `val(FB)` = 3·2^128 + 0xFFFFFFFF. -/
theorem test_fmul_p4 :
    got (exec .fmul { s0 with
        fa := BitVec.ofNat 130 (2 ^ 130 - 6), fb := BitVec.ofNat 130 (3 * 2 ^ 128 + 0xFFFFFFFF) })
      (fun t => (numWord t.fr 0, numWord t.fr 1, numWord t.fr 2, numWord t.fr 3, numWord t.fr 4)) =
      some (0xfffffffc, 0xfffffffe, 0xffffffff, 0xffffffff, 0) := by decide +kernel

/-! ## The authenticator -/

/-- R200's example, both variants. -/
theorem test_p_init :
    got (exec (.pInit 32) { s0 with pkeyin := polyKey }) (fun t => (t.r, t.pad)) =
      some (0x0806d5400e52447c036d555408bed685, 0x1bf54941aff6bf4afdb20dfb8a800301) ∧
    got (exec (.pInit 32) { d0 with pkeyin := polyKey }) (·.r) = some 0x0c06d5420e52447f076d55570cbed685 := by
  decide +kernel

/-- V6.9: a failed P_INIT destroys the object and keeps `R` and `TAG`. -/
theorem test_p_init_destroys :
    got (exec (.pInit 16) tagged) (fun t => (t.errcode, t.avalid, t.pphase, t.tvalid, t.tag)) =
      some (.size, false, .idle, false, tagged.tag) := by decide +kernel

/-- V6.9: P_START in phase `DONE`. -/
theorem test_p_start : got (exec .pStart tagged) (fun t => (t.pphase, t.tvalid, t.h)) = some (.active, false, 0) := by
  decide +kernel

/-- R203's example, both variants. -/
theorem test_p_block_full :
    got (exec (.pBlock 16) crypto) (fun t => (t.h, t.pphase)) = some (0x2c88c77849d64ae9147ddeb88e69c83fc, .active) ∧
    got (exec (.pBlock 16) cryptoDoc) (·.h) = some 0x154820f1e92ea5ccf84f7f3ab2bacf56c := by decide +kernel

/-- V2.8 and V6.2: the last, short block "up". -/
theorem test_p_block_short :
    got (exec (.pBlock 2) { crypto with h := 0x2d8adaf23b0337fa7cccfb4ea344b30de, din := crypto.din.set 0 0x00007075 })
      (fun t => (t.h, t.pphase)) = some (0x28d31b7caff946c77c8844335369d03a7, .tailed) ∧
    got (exec (.pBlock 2)
      { cryptoDoc with h := 0x197b1ed99cc9779560ae07d1646159010, din := crypto.din.set 0 0x00007075 }) (·.h) =
      some 0x7ebc3e613707fdc43c2d0bb34312f6de := by decide +kernel

/-- V2.8's tag, in phase `TAILED`. -/
theorem test_p_final :
    got (exec .pFinal { crypto with h := 0x28d31b7caff946c77c8844335369d03a7, pphase := .tailed })
      (fun t => (numBytes t.tag 16, t.pphase)) =
      some ([0xa8, 0x06, 0x1d, 0xc1, 0x30, 0x51, 0x36, 0xc6, 0xc2, 0x2b, 0x8b, 0xaf, 0x0c, 0x01, 0x27, 0xa9], .done) := by
  decide +kernel

/-- V6.4: the empty message under DOC_LITERAL with key 32 × 0x01 folds the extra block. -/
theorem test_p_final_extra_block :
    got (exec .pFinal { d0 with
        avalid := true, pphase := .active
        r := 0x05010101050101010501010105010101, pad := 0x01010101010101010101010101010101 })
      (fun t => numBytes t.tag 16) =
      some [0xa1, 0xa1, 0x21, 0xa4, 0xa1, 0xa1, 0x21, 0xa4, 0xa1, 0xa1, 0x21, 0xa4, 0xa1, 0xa1, 0x21, 0x84] := by
  decide +kernel

/-- R207's example, and V6.6's flipped last tag bit. -/
theorem test_tagcmp :
    got (exec (.tagcmp 16) tagged) (·.eq) = some true ∧
    got (exec (.tagcmp 16) { tagged with tagin := 0xa827010caf8b2bc2c6365130c11d06a8 }) (·.eq) = some false := by
  decide +kernel

/-- V6.9: `tagcmp 16` and `tagcmp 15` at reset. -/
theorem test_tagcmp_reset :
    got (exec (.tagcmp 16) s0) (·.errcode) = some .seq ∧ got (exec (.tagcmp 15) s0) (·.errcode) = some .none := by
  decide +kernel

/-! ## Lifecycle, window and reset -/

/-- Section 3.7: an illegal word's `STATUS`. -/
theorem test_illegal_status : got (step (s0.withFetchWord 32 7)) statusWord = some 0x00000056#32 := by decide +kernel

/-- Section 3.7: the issue of a command, before the engine step. -/
theorem test_accept_status : statusWord (hostWrite cmdIdx 5 s0) = 0x00000001#32 := by decide +kernel

/-- Section 3.7: `irq` after a completion with `CTRL` = 1, and after the `clr`. -/
theorem test_irq :
    got (engineStep { inFlight 0 with ie := true }) irq = some true ∧
    irq (hostWrite statusIdx 2 { s0 with ie := true, done := true }) = false := by decide +kernel

/-- Section 3.8: a write while busy is dropped. -/
theorem test_busy_write :
    (hostWrite (idxOf 0x080) 5 (inFlight 5)).st[0] = 0 ∧ (hostWrite (idxOf 0x080) 5 (inFlight 5)).wdrop = true := by
  decide +kernel

/-- Section 3.8: `wr CTRL, 3` with `CTRL` = 1 is a soft reset; `CTRL` reads 0. -/
theorem test_soft_reset : memRead (hostWrite ctrlIdx 3 { s0 with ie := true }) ctrlIdx = 0 := by decide +kernel

/-- P4: a write of ffffffff to `FB[4]` keeps bits [1:0]. -/
theorem test_fb4 : memRead (hostWrite (idxOf 0x1B0) 0xFFFFFFFF s0) (idxOf 0x1B0) = 3 := by decide +kernel

/-- Section 3.8: the identification registers, under DOC_LITERAL. -/
theorem test_ident :
    memRead d0 (idxOf 0) = 0x50324358 ∧ memRead d0 (idxOf 4) = 1 ∧ memRead d0 (idxOf 8) = 1 := by decide +kernel

/-- P5: `STATUS` read while busy, with a dropped write before it. -/
theorem test_busy_status : memRead { inFlight 5 with wdrop := true } statusIdx = 0x00008001 := by decide +kernel

/-- R63: bus addresses on either side of the window's end. -/
theorem test_port_index : portIndex 0x40000000 0x400003FC = 255 ∧ portIndex 0x40000000 0x40000400 = 0 := by
  decide +kernel

/-! ## Host programs and their text -/

/-- P1's lines. -/
theorem test_parse_p1 :
    parseLine "wr S[0], 0x11111111".toList = some [.wr 0x20 0x11111111] ∧
    parseLine "cmd qr 0, 1, 2, 3".toList = some [.wr 0x05 0x00321001] ∧
    parseLine "run nop".toList = some [.wr 0x05 0, .wait] ∧
    parseLine "rd DIN[15]".toList = some [.rd 0x3F] := by decide +kernel

/-- R101: values that do not fit are refused, not truncated. -/
theorem test_parse_refuses :
    parseLine "cmd qr 0, 1, 2, 16".toList = none ∧ parseLine "cmd c_xor 128".toList = none ∧
    parseLine "cmd c_init 256, 24".toList = none ∧ parseLine "wr S[16], 0".toList = none := by decide +kernel

/-- R101, R106, R108: optional operands, byte strings and `clr`. -/
theorem test_parse_forms :
    parseLine "cmd c_init 32, 12, 1".toList = some [.wr 0x05 0x010C2020] ∧
    parseLine "wrbytes DIN, 68656c6c6f".toList = some [.wr 0x30 0x6C6C6568, .wr 0x31 0x0000006F] ∧
    parseLine "clr".toList = some [.wr 0x04 0x00008006] ∧
    parseLine "rdbytes DOUT, 5".toList = some [.rd 0x40, .rd 0x41] := by decide +kernel

/-- R107 on R158's example: the five bytes of `DOUT`, the second word read last and so first in the log. -/
theorem test_rdbytes_value :
    rdbytesValue 5 [0x000000B0, 0x8D62DEDE, 0x12345678] = [0xDE, 0xDE, 0x62, 0x8D, 0xB0] := by decide

/-- R207: a supplied tag of 144 bytes is not compared as one of 16. -/
theorem test_verify_long_tag :
    verifyProgram [] (List.replicate 144 0) = [.wr 0x05 0x00000044, .wait] := by decide +kernel

/-- R261: `rst_n` driven to the 1 it has resets nothing; driven low it does. -/
theorem test_rst_n_level :
    got (step { loadProgram [.rstN true] s0 with ctrin := 7 }) (fun t => (t.ctrin, t.rstN)) = some (7, true) ∧
    got (step { loadProgram [.rstN false] s0 with ctrin := 7 }) (fun t => (t.ctrin, t.rstN)) = some (0, false) := by
  decide

end Sys2Proof.Tests
end

