-- ==== Sys2Proof/Tests/Witnesses.lean ====
section
/-!
SUPPORT. For every statement with hypotheses, a concrete state and operands that meet all of them together; where a
statement has several clauses, one for each, at the edge of its range.
-/

-- One theorem at a time, as in Tests/Slice0.
set_option Elab.async false

open Sys2Proof Sys2Proof.Machine

namespace Sys2Proof.Tests

/-- A started stream with one unused keystream byte. -/
def almost : State := { ladies with kpos := 63 }

/-- The device after reset with the pin still low. -/
def held : State := { s0 with rstN := false }

/-- A C_INIT in flight on staged inputs. -/
def constructing : State := { inFlight 0x00182020#32 with keyin := key1f, ctrin := 7 }

theorem witness_DecodeOfEncode : (Instr.cXor 127 true).wellFormed = true ∧ (Instr.cInit 255 0 true).wellFormed = true := by
  decide

theorem witness_EncodeOfDecode : decode 0x00007F44#32 = .ok (.tagcmp 127) := by rfl

theorem witness_legalWord : legalWord 0x00007F44#32 ∧ legalWord 0x01FFFF20#32 ∧ legalWord 0x00FFFF01#32 := by
  unfold legalWord
  decide

theorem witness_IllegalWordsCompleteWithEOpc :
    ¬ legalWord 0x00008044#32 ∧ ¬ legalWord 0x02182020#32 ∧ ¬ legalWord 0x01321001#32 ∧ ¬ legalWord 0x00000007#32 := by
  unfold legalWord
  decide

theorem witness_AcceptanceOfACommand : s0.rstN = true ∧ s0.busy = false := by decide

theorem witness_StepRunsTheDecodedCommand :
    (inFlight 5).rstN = true ∧ (inFlight 5).busy = true ∧ (inFlight 5).delay = 0 ∧
    (inFlight 5).program[(inFlight 5).hostPos]? = none ∧ decode (inFlight 5).pending = .ok .perm := by
  exact ⟨rfl, rfl, rfl, rfl, rfl⟩

theorem witness_StepRunsTheDecodedCommand_illegal :
    (inFlight 7).rstN = true ∧ (inFlight 7).busy = true ∧ (inFlight 7).delay = 0 ∧ ¬ legalWord (inFlight 7).pending := by
  unfold legalWord
  decide

theorem witness_AcceptedCommandCompletes : (waiting [.rd 0x20, .wait]).busy = true := rfl

theorem witness_CommandRunsOnItsAcceptedInputs :
    (waiting [.rstN true, .wr 0x20 5, .wait]).rstN = true ∧ (waiting [.rstN true, .wr 0x20 5, .wait]).busy = true ∧
    decode (waiting [.rstN true, .wr 0x20 5, .wait]).pending = .ok .perm ∧
    noReset (waiting [.rstN true, .wr 0x20 5, .wait]).program :=
  ⟨rfl, rfl, rfl, by decide⟩

theorem witness_ErrorCompletionIsPrecise :
    firstFailing (checks (.cInit 31 24 false) s0) = .size ∧ firstFailing (checks (.cInit 32 24 true) s0) = .size ∧
    firstFailing (checks .cStart s0) = .noInit ∧ firstFailing (checks (.cXor 65 false) s0) = .len ∧
    firstFailing (checks (.cXor 64 false) { s0 with cvalid := true }) = .seq ∧
    firstFailing (checks (.pInit 33) s0) = .size ∧ firstFailing (checks .pStart s0) = .noInit ∧
    firstFailing (checks (.pBlock 17) s0) = .len ∧ firstFailing (checks (.pBlock 16) tagged) = .seq ∧
    firstFailing (checks .pFinal tagged) = .seq ∧ firstFailing (checks (.tagcmp 16) s0) = .seq := by decide

theorem witness_SuccessfulCompletionReportsNoError :
    firstFailing (checks (.pBlock 16) crypto) = .none ∧ crypto.err = false ∧ crypto.errcode = .none ∧
    firstFailing (checks (.cXor 64 false) ladies) = .none ∧ ladies.err = false ∧ ladies.errcode = .none := by decide

theorem witness_CommandsWriteOnlyTheirRegisters :
    (∃ t, exec .fadd s0 = .next t) ∧ mayWrite .fadd (regAt (idxOf 0x180)) = false :=
  ⟨⟨_, rfl⟩, by decide⟩

theorem witness_OnlyPermutationCommandsUseS : isPermutation .fadd = false ∧ ∃ t, exec .fadd s0 = .next t :=
  ⟨rfl, ⟨_, rfl⟩⟩

theorem witness_CipherObjectIsImmutable :
    got (step constructing) (fun t => (t.ckey, t.cctr0, t.cvalid)) = some (key1f, 7, true) ∧
    got (step { ladies with ckey := key1f }) (·.ckey) = some key1f ∧
    got (step { held with ckey := key1f }) (·.ckey) = some (Vector.replicate 8 0) := by decide +kernel

theorem witness_CipherObjectIsImmutable_reset :
    ResetNext held ∧ ResetNext (loadProgram [.wr 3 2] s0) ∧
    got (step { loadProgram [.wr 3 2] ladies with ckey := key1f }) (·.ckey) = some (Vector.replicate 8 0) := by
  refine ⟨.inl rfl, .inr ⟨rfl, _, rfl, rfl⟩, by decide +kernel⟩

theorem witness_WindowMapReads :
    reservedOffset 0x024 ∧ reservedOffset 0x03C ∧ reservedOffset 0x194 ∧ reservedOffset 0x26C ∧ reservedOffset 0x3FC ∧
    ¬ reservedOffset 0x020 ∧ ¬ reservedOffset 0x040 ∧ ¬ reservedOffset 0x2F8 := by
  unfold reservedOffset
  omega

theorem witness_StatusWriteOneToClear : s0.rstN = true ∧ s0.busy = false := ⟨rfl, rfl⟩

theorem witness_SoftResetAtAnyTime :
    s0.rstN = true ∧ (inFlight 5).rstN = true ∧ (inFlight 5).busy = true ∧ (0xFFFFFFFE#32).getLsbD 1 = true := by decide

theorem witness_ReadsHaveNoSideEffect :
    (inFlight 5).rstN = true ∧ (inFlight 5).busy = true ∧ (4#8).toNat ≤ 4 ∧ 4 < (5#8).toNat := by decide

theorem witness_IdleWriteStoresOneWord :
    storesValue (regAt (idxOf 0x190)) = true ∧ storesValue (regAt (idxOf 0x1FC)) = true ∧
    storesValue (regAt (idxOf 0x018)) = true := by decide

theorem witness_ReadOnlyOffsetsIgnoreWrites :
    ignoresWrite (regAt 0) = true ∧ ignoresWrite (regAt 255) = true ∧ ignoresWrite (regAt (idxOf 0x194)) = true := by
  decide

theorem witness_CtrlWriteSetsInterruptEnable : (0xFFFFFFFD#32).getLsbD 1 = false := by decide

theorem witness_BusyWritesAreDropped :
    (inFlight 5).rstN = true ∧ (inFlight 5).busy = true ∧ ¬ (cmdIdx = ctrlIdx ∧ (2#32).getLsbD 1 = true) ∧
    (ctrlIdx = ctrlIdx ∧ (2#32).getLsbD 1 = true) := by decide

theorem witness_HeldInReset :
    held.rstN = false ∧ got (step held) (·.rstN) = some false ∧
    engineTurn (waiting [.rstN false]) = false ∧
    (waiting [.rstN false]).program[(waiting [.rstN false]).hostPos]? = some (.rstN false) ∧
    got (step (waiting [.rstN false])) (·.rstN) = some false := by decide

theorem witness_InterruptFollowsCompletion :
    LifecycleInv (inFlight 5) ∧ (inFlight 5).busy = true ∧ ∃ t, engineStep (inFlight 0) = .next t :=
  ⟨by decide, rfl, ⟨_, rfl⟩⟩

theorem witness_HostTurns_idle :
    s0.busy = false ∧ HostAt (loadProgram [.rd 0x20] s0) (.rd 0x20) ∧ HostAt (loadProgram [.wr 0x20 1] s0) (.wr 0x20 1) ∧
    HostAt (loadProgram [.wait] s0) .wait ∧ HostAt (loadProgram [.waitIrq] s0) .waitIrq ∧
    HostAt (loadProgram [.rstN true] s0) (.rstN true) :=
  ⟨rfl, ⟨rfl, rfl⟩, ⟨rfl, rfl⟩, ⟨rfl, rfl⟩, ⟨rfl, rfl⟩, ⟨rfl, rfl⟩⟩

theorem witness_HostTurns_in_flight :
    (waiting []).busy = true ∧ (waiting []).delay ≠ 0 ∧
    (HostAt (waiting [.rd 4]) (.rd 4) ∧ (4#8).toNat ≤ 4) ∧ (HostAt (waiting [.rd 5]) (.rd 5) ∧ 4 < (5#8).toNat) ∧
    (HostAt (waiting [.wr 3 1]) (.wr 3 1) ∧ ¬ (3#8 = ctrlIdx ∧ (1#32).getLsbD 1 = true)) ∧
    (HostAt (waiting [.wr ctrlIdx 2]) (.wr ctrlIdx 2) ∧ (2#32).getLsbD 1 = true) ∧
    HostAt (waiting [.wait]) .wait ∧ HostAt (waiting [.waitIrq]) .waitIrq ∧
    HostAt (waiting [.rstN true]) (.rstN true) :=
  ⟨rfl, by decide, ⟨⟨rfl, rfl⟩, by decide⟩, ⟨⟨rfl, rfl⟩, by decide⟩, ⟨⟨rfl, rfl⟩, by decide⟩,
    ⟨⟨rfl, rfl⟩, by decide⟩, ⟨rfl, rfl⟩, ⟨rfl, rfl⟩, ⟨rfl, rfl⟩⟩

theorem witness_NothingChangesAfterTheEnd :
    s0.rstN = true ∧ s0.busy = false ∧ s0.program[s0.hostPos]? = none := ⟨rfl, rfl, rfl⟩

theorem witness_PermutationCommandsArePure :
    isPermutation .permff = true ∧ s0.st = tagged.st := by decide

theorem witness_PermIsABijection : ∃ t, exec .perm { s0 with st := counting.st } = .next t := ⟨_, rfl⟩

theorem witness_CInitConstructsOrDestroys :
    (32 = 32 ∧ 12 = (if true then 12 else 24)) ∧ ¬ (32 = 32 ∧ 24 = (if true then 12 else 24)) ∧
    ¬ (31 = 32 ∧ 24 = (if false then 12 else 24)) := by decide

theorem witness_CStartRestartsFromTheStoredCounter : ladies.cvalid = true := by decide

theorem witness_CXorMovesBytesThroughThePipeline :
    ladies.cvalid = true ∧ ladies.cstream = true ∧ almost.kpos.toNat ≤ 64 ∧ ladies.kpos.toNat ≤ 64 ∧
    almost.kpos.toNat + 1 ≤ 64 ∧ 64 < almost.kpos.toNat + 2 := by decide

theorem witness_StreamCorrespondence :
    ladies.cvalid = true ∧ ladies.errcode = .none ∧
    ∀ c ∈ [(⟨ladies.din, 64, false⟩ : Chunk), ⟨ladies.din, 0, true⟩, ⟨ladies.din, 3, false⟩], c.len ≤ 64 := by
  refine ⟨rfl, rfl, ?_⟩
  simp

theorem witness_PInitClampsTheMultiplier : 31 ≠ 32 := by decide

theorem witness_PStartBeginsAComputation : tagged.avalid = true := by decide

theorem witness_PBlockFoldsOneBlock :
    crypto.avalid = true ∧ crypto.pphase = .active ∧ 1 ≤ 1 ∧ 1 ≤ 16 ∧ 16 ≤ 16 := by decide

theorem witness_PFinalAddsThePad :
    crypto.avalid = true ∧ (crypto.pphase = .active ∨ crypto.pphase = .tailed) ∧ cryptoDoc.pphase = .active := by decide

theorem witness_TagcmpComparesAllBytes : tagged.tvalid = true ∧ 15 ≠ 16 ∧ 127 ≠ 16 := by decide

theorem witness_SecondRequestDecrypts : ladies.cvalid = true ∧ 64 ≤ 64 := ⟨rfl, Nat.le_refl 64⟩

theorem witness_VerifyOfAMessage :
    ([] : List Byte).length ≠ 16 ∧ (List.replicate 144 (0#8)).length ≠ 16 := by simp

theorem witness_RdbytesDenotesTheBytesRead :
    (loadProgram (rdbytes 0x100 5) s0).rstN = true ∧ (loadProgram (rdbytes 0x100 5) s0).busy = false ∧
    rdbytes 0x100 5 <+: (loadProgram (rdbytes 0x100 5) s0).program.drop (loadProgram (rdbytes 0x100 5) s0).hostPos :=
  ⟨rfl, rfl, ⟨[], rfl⟩⟩

theorem witness_StepKeepsObjectInv : ObjectInv { tagged with eq := true } ∧ ObjectInv ladies := by decide

theorem witness_StepKeepsLifecycleInv :
    LifecycleInv (inFlight 5) ∧ LifecycleInv { s0 with done := true, err := true, errcode := .len } := by decide

theorem witness_StepKeepsReducedInv : ReducedInv crypto ∧ ReducedInv { s0 with h := 0x3fffffffffffffffffffffffffffffffa } := by
  decide

theorem witness_StepKeepsStreamInv : StreamInv { ladies with ckey := key1f, cnonce := #v[0, 0x4a000000, 0, 0, 0, 0] } := by
  decide +kernel

theorem witness_StepKeepsTagInv :
    TagInv { tagged with h := 0x28d31b7caff946c77c8844335369d03a7, pad := 0x1bf54941aff6bf4afdb20dfb8a800301 } := by decide

theorem witness_StepKeepsClampInv : ClampInv crypto ∧ ClampInv cryptoDoc := by
  refine ⟨fun _ => ?_, fun _ => ?_⟩
  · show crypto.r &&& 0x0FFFFFFC0FFFFFFC0FFFFFFC0FFFFFFF#128 = crypto.r
    decide
  · show (cryptoDoc.r &&& 0x0FFFFFFF0FFFFFFF0FFFFFFF0FFFFFFF#128) ||| 0x04000000040000000400000004000000#128 =
      cryptoDoc.r
    decide

theorem witness_steps_exist : ∃ t, step crypto = .next t := ⟨_, rfl⟩

end Sys2Proof.Tests
end

section
/-!
PROOFS, host programs. A run of host reads while the block is idle: one read's step (spec/10_state.md R64), a list of
reads, and what `rdbytes` denotes of them (spec/30_encoding.md R107).
-/

namespace Sys2Proof.Machine

/-- `s` once its host has done one more read for each of the words `ws`, in order. -/
def State.afterReads (s : State) (ws : List Word) : State :=
  { s with readLog := ws.reverse ++ s.readLog, hostPos := s.hostPos + ws.length }

@[simp] theorem State.afterReads_readLog (s : State) (ws : List Word) :
    (s.afterReads ws).readLog = ws.reverse ++ s.readLog := rfl

/-- No register of the window shows the host's log or position (R64). -/
@[simp] theorem memRead_afterReads (s : State) (ws : List Word) : memRead (s.afterReads ws) = memRead s := rfl

theorem State.afterReads_afterReads (s : State) (us ws : List Word) :
    (s.afterReads us).afterReads ws = s.afterReads (us ++ ws) := by
  simp [State.afterReads, Nat.add_assoc]

/-- While idle, a read's step logs the register's current value and changes nothing of the block (R64). -/
theorem step_rd_idle {s : State} {idx : BitVec 8} (hbusy : s.busy = false) (hat : HostAt s (.rd idx)) :
    step s = .next (s.afterReads [memRead s idx]) := by
  obtain ⟨hrst, hop⟩ := hat
  have noEngine : engineTurn s = false := by simp [engineTurn, hbusy]
  have noCount : countTurn s = s := by simp [countTurn, hbusy]
  have value : hostRead idx s = (memRead s idx, s) := by simp [hostRead, hrst, hbusy]
  have turnIsRead : hostTurn s = s.afterReads [memRead s idx] := by
    simp only [hostTurn, nextOp, hop, hostOp, value, advance, recordRead, State.afterReads, List.reverse_singleton,
      List.singleton_append, List.length_singleton]
  simp [step, turn, hrst, noEngine, noCount, turnIsRead]

/-- Operations that stand at position `k`: the first is the one there, the others stand at the next position. -/
theorem prefix_drop_cons {op : HostOp} {ops program : List HostOp} {k : Nat} (h : op :: ops <+: program.drop k) :
    program[k]? = some op ∧ ops <+: program.drop (k + 1) := by
  obtain ⟨rest, hrest, hops⟩ := List.cons_prefix_iff.mp h
  constructor
  · rw [← List.head?_drop, hrest, List.head?_cons]
  · rwa [← List.tail_drop, hrest]

/-- A run whose first step goes on is the run of the rest from there. -/
theorem core_run_succ {s t : State} (k : Nat) (h : step s = .next t) :
    Host.Core.run Sys2Proof.core (k + 1) s = Host.Core.run Sys2Proof.core k t := by
  have first : Sys2Proof.core.step s = .next t := h
  simp only [Host.Core.run, first]

/-- Reads done one after another while idle log the values of their registers, all taken from the one state they start
in, since a read changes none of them (R64). -/
theorem run_reads_idle (idxs : List (BitVec 8)) {s : State} (hrst : s.rstN = true) (hbusy : s.busy = false)
    (hops : idxs.map .rd <+: s.program.drop s.hostPos) :
    Host.Core.run Sys2Proof.core idxs.length s = .next (s.afterReads (idxs.map (memRead s))) := by
  induction idxs generalizing s with
  | nil => rfl
  | cons idx idxs ih =>
    obtain ⟨hop, others⟩ := prefix_drop_cons hops
    have first : step s = .next (s.afterReads [memRead s idx]) := step_rd_idle hbusy ⟨hrst, hop⟩
    have rest := ih (s := s.afterReads [memRead s idx]) hrst hbusy others
    rw [List.length_cons, core_run_succ _ first, rest, State.afterReads_afterReads, memRead_afterReads, List.map_cons,
      List.singleton_append]

/-- The word indices `rdbytes` reads, in order (R107). -/
def rdbytesIndices (offset n : Nat) : List (BitVec 8) :=
  (List.range ((n + 3) / 4)).map fun i => idxOf (offset + 4 * i)

@[simp] theorem rdbytesIndices_length (offset n : Nat) : (rdbytesIndices offset n).length = (n + 3) / 4 := by
  simp [rdbytesIndices]

theorem rdbytes_eq_map_rd (offset n : Nat) : rdbytes offset n = (rdbytesIndices offset n).map .rd := by
  simp [rdbytes, rdbytesIndices, rdOff]

/-- The first n bytes of enough words: byte k is byte k mod 4 of word k div 4 (R14). -/
theorem take_flatMap_wordBytes_range (f : Nat → Word) {m n : Nat} (h : n ≤ 4 * m) :
    (((List.range m).map f).flatMap wordBytes).take n =
      (List.range n).map fun k => wordByte (f (k / 4)) (k % 4) := by
  apply List.ext_getElem?
  intro k
  by_cases hk : k < n
  · have inWords : k < 4 * ((List.range m).map f).length := by simp; omega
    rw [List.getElem?_take_of_lt hk, flatMap_wordBytes_get _ k inWords]
    simp [hk]
  · simp [hk]

/-- Settles O60: the run of the reads logs the words at consecutive offsets, and their first n bytes are those R107
names. -/
theorem rdbytesDenotesTheBytesRead : Obligations.RdbytesDenotesTheBytesRead := by
  unfold Obligations.RdbytesDenotesTheBytesRead
  intro s off n hrst hbusy hops
  rw [rdbytes_eq_map_rd] at hops
  have words : ((rdbytesIndices off n).map (memRead s)).length = (n + 3) / 4 := by simp
  refine ⟨s.afterReads ((rdbytesIndices off n).map (memRead s)), ?_, ?_, ?_⟩
  · simpa using run_reads_idle (rdbytesIndices off n) hrst hbusy hops
  · rw [State.afterReads_readLog, rdbytesValue_eq n _ _ words, rdbytesIndices, List.map_map]
    exact take_flatMap_wordBytes_range _ (by omega)
  · rw [← words]
    rfl

end Sys2Proof.Machine
end

section
/-!
PROOFS, commands. Every command as one completion (spec/60_exceptions.md R233, R235, R236): which code it completes with
and what its rule has done to the state before. What a command does to a register is then said of that state alone.
-/

namespace Sys2Proof.Machine

/-- What a command's rule does to the state, completion aside, when none of its checks fails. -/
def effect (i : Instr) (s : State) : State :=
  match i with
  | .nop => s
  | .qr a b c d => { s with st := qr s.st a b c d }
  | .colround => { s with st := colround s.st }
  | .diaground => { s with st := diaground s.st }
  | .doubleround => { s with st := doubleround s.st }
  | .perm => { s with st := perm20 s.st }
  | .permff => { s with st := permff s.st }
  | .hchacha => { s with hout := hchacha s.keyin (noncePrefix s.noncein) }
  | .cInit _ _ raw =>
    { s with
      ckey := s.keyin
      cnonce := s.noncein
      cctr0 := s.ctrin
      craw := raw
      cvalid := true
      cstream := false }
  | .cStart =>
    { s with
      sk := streamKey s.craw s.ckey s.cnonce
      n12 := streamNonce s.craw s.cnonce
      bctr := s.cctr0
      kpos := 64
      cstream := true }
  | .cXor len z => xorBytes z len s
  | .fadd => { s with fr := BitVec.ofNat 130 (fieldAdd s.fa.toNat s.fb.toNat) }
  | .fmul => { s with fr := BitVec.ofNat 130 (fieldMul s.fa.toNat s.fb.toNat) }
  | .pInit _ =>
    { s with
      pphase := .idle
      tvalid := false
      eq := false
      r := BitVec.ofNat 128 (leValue (clamp s.variant (bytesFrom s.pkeyin 0 16)))
      pad := BitVec.ofNat 128 (leValue (bytesFrom s.pkeyin 16 16))
      h := 0
      avalid := true }
  | .pStart => { s with h := 0, pphase := .active, tvalid := false, eq := false }
  | .pBlock len =>
    { s with
      h := BitVec.ofNat 130 (fold s.r.toNat s.h.toNat (blockValue s.variant (bytesFrom s.din 0 len)))
      pphase := if len < 16 then .tailed else s.pphase }
  | .pFinal =>
    { s with
      h := finalAccumulator s
      tag := BitVec.ofNat 128 ((finalAccumulator s).toNat + s.pad.toNat)
      tvalid := true
      pphase := .done }
  | .tagcmp len => { s with eq := if len = 16 then ctEq (numBytes s.tag 16) (numBytes s.tagin 16) else false }

/-- The code a command completes with (R238). -/
def completionCode (i : Instr) (s : State) : ErrCode := firstFailing (checks i s)

/-- The state a command leaves to its completion: its whole effect, or the assignments before its raise (R236). -/
def beforeCompletion (i : Instr) (s : State) : State :=
  if completionCode i s = .none then effect i s else beforeRaise i s

/-- Every command is one completion (R233, R235, R236). -/
theorem exec_eq_complete (i : Instr) (s : State) :
    exec i s = .next (complete (completionCode i s) (beforeCompletion i s)) := by
  unfold beforeCompletion completionCode
  cases i with
  | cInit klen nlen raw =>
    by_cases size : klen ≠ 32 ∨ nlen ≠ expectedNonceLen raw
    · have failed : (klen != 32 || nlen != (if raw then 12 else 24)) = true := by simpa [expectedNonceLen] using size
      simp [exec, execCInit, checks, firstFailing, size, failed, raiseError, beforeRaise]
    · have passed : (klen != 32 || nlen != (if raw then 12 else 24)) = false := by
        simpa [expectedNonceLen] using size
      simp [exec, execCInit, checks, firstFailing, size, passed, finish, effect]
  | cStart =>
    cases hobject : s.cvalid <;>
      simp [exec, execCStart, checks, firstFailing, hobject, finish, raiseError, effect, beforeRaise]
  | cXor len z =>
    by_cases hlen : 64 < len
    · simp [exec, execCXor, checks, firstFailing, hlen, raiseError, beforeRaise]
    · cases hobject : s.cvalid <;> cases hstream : s.cstream <;>
        simp [exec, execCXor, checks, firstFailing, hlen, hobject, hstream, finish, raiseError, effect, beforeRaise]
  | pInit klen =>
    by_cases size : klen = 32 <;>
      simp [exec, execPInit, checks, firstFailing, size, finish, raiseError, effect, beforeRaise]
  | pStart =>
    cases hobject : s.avalid <;>
      simp [exec, execPStart, checks, firstFailing, hobject, finish, raiseError, effect, beforeRaise]
  | pBlock len =>
    by_cases hlen : len = 0 ∨ 16 < len
    · simp [exec, execPBlock, checks, firstFailing, hlen, raiseError, beforeRaise]
    · cases hobject : s.avalid <;> by_cases hphase : s.pphase = .active <;>
        simp [exec, execPBlock, checks, firstFailing, hlen, hobject, hphase, finish, raiseError, effect, beforeRaise]
  | pFinal =>
    cases hobject : s.avalid <;> cases hphase : s.pphase <;>
      simp [exec, execPFinal, checks, firstFailing, hobject, hphase, finish, raiseError, effect, beforeRaise]
  | tagcmp len =>
    by_cases hlen : len = 16 <;> cases htag : s.tvalid <;>
      simp [exec, execTagcmp, checks, firstFailing, hlen, htag, finish, raiseError, effect, beforeRaise]
  | _ => rfl

/-- A command's answer is its one completion. -/
theorem eq_complete_of_exec {i : Instr} {s t : State} (run : exec i s = .next t) :
    t = complete (completionCode i s) (beforeCompletion i s) := by
  rw [exec_eq_complete] at run
  exact (Host.Outcome.next.inj run).symm

/-- What holds after a command's whole effect, and of the state before its raise, holds before its completion. -/
theorem beforeCompletion_of {P : State → Prop} {i : Instr} {s : State} (whole : P (effect i s))
    (raised : P (beforeRaise i s)) : P (beforeCompletion i s) := by
  unfold beforeCompletion
  split
  · exact whole
  · exact raised

end Sys2Proof.Machine
end

section
/-!
PROOFS, one step. What the host's operations and a whole step can do to a state (spec/10_state.md R21), said once; each
invariant of the block is then one case analysis.
-/

namespace Sys2Proof.Machine

theorem hostWrite_idle (idx : BitVec 8) (v : Word) {s : State} (hrst : s.rstN = true) (hidle : s.busy = false) :
    hostWrite idx v s = writeReg (regAt idx) v s := by
  simp [hostWrite, memWrite, hrst, hidle]

theorem hostWrite_busy (idx : BitVec 8) (v : Word) {s : State} (hrst : s.rstN = true) (hbusy : s.busy = true) :
    hostWrite idx v s = writeBusy (regAt idx) v s := by
  simp [hostWrite, memWrite, hrst, hbusy]

theorem isSoftReset_iff (reg : Reg) (v : Word) : isSoftReset reg v = true ↔ reg = .ctrl ∧ v.getLsbD 1 = true := by
  simp [isSoftReset]

/-- A write at the port with `rst_n` = 1 is a soft reset, is dropped while busy, or writes a register while idle. -/
theorem hostWrite_cases (idx : BitVec 8) (v : Word) {s : State} (hrst : s.rstN = true) :
    (isSoftReset (regAt idx) v = true ∧ hostWrite idx v s = blockReset s) ∨
    (isSoftReset (regAt idx) v = false ∧ s.busy = true ∧ hostWrite idx v s = { s with wdrop := true }) ∨
    (isSoftReset (regAt idx) v = false ∧ s.busy = false ∧ hostWrite idx v s = writeReg (regAt idx) v s) := by
  by_cases hbusy : s.busy = true
  · rw [hostWrite_busy idx v hrst hbusy]
    rcases writeBusy_cases (regAt idx) v s with ⟨hsoft, hwrite⟩ | ⟨hsoft, hwrite⟩
    · exact .inl ⟨hsoft, hwrite⟩
    · exact .inr (.inl ⟨hsoft, hbusy, hwrite⟩)
  · have hidle : s.busy = false := by simpa using hbusy
    rw [hostWrite_idle idx v hrst hidle]
    cases hsoft : isSoftReset (regAt idx) v
    · exact .inr (.inr ⟨rfl, hidle, rfl⟩)
    · obtain ⟨hreg, hbit⟩ := (isSoftReset_iff _ _).mp hsoft
      exact .inl ⟨rfl, by simp [writeReg, hreg, hbit]⟩

/-- `s` with other values in the fields that a host operation may change though it neither resets the block nor writes a
register: the host's own, the model's own, and `WDROP` for a dropped write (R271). -/
def State.withHost (s : State) (wdrop : Bool) (hostPos : Nat) (readLog : List Word) (delay draws : Nat) : State :=
  { s with wdrop := wdrop, hostPos := hostPos, readLog := readLog, delay := delay, draws := draws }

/-- A read at the port, recorded, changes only the host's log and the count of draws. -/
theorem recordRead_hostRead_eq (idx : BitVec 8) (s : State) :
    ∃ log draws, recordRead (hostRead idx s) = s.withHost s.wdrop s.hostPos log s.delay draws := by
  rcases hostRead_cases idx s with ⟨hread, -⟩ | ⟨hread, -⟩ <;> rw [hread] <;> exact ⟨_, _, rfl⟩

/-- What one operation of the host can lead to from a state with `rst_n` = 1. -/
inductive HostLeads (op : HostOp) (s : State) : State → Prop
  /-- A soft reset, or the pin driven low (R261, R262). -/
  | reset (u : State) (hreset : isReset op = true) (hvariant : u.variant = s.variant) : HostLeads op s (blockReset u)
  /-- A read, a wait, a write dropped while busy, or the pin driven to the 1 it has. -/
  | quiet (wdrop : Bool) (hostPos : Nat) (readLog : List Word) (draws : Nat) :
    HostLeads op s (s.withHost wdrop hostPos readLog s.delay draws)
  /-- A write while idle that is no soft reset (R65). -/
  | write (reg : Reg) (v : Word) (hidle : s.busy = false) (hsoft : isSoftReset reg v = false) :
    HostLeads op s (advance (writeReg reg v s))

theorem hostOp_leads (op : HostOp) {s : State} (hrst : s.rstN = true) : HostLeads op s (hostOp op s) := by
  cases op with
  | rd idx =>
    obtain ⟨log, draws, hread⟩ := recordRead_hostRead_eq idx s
    simp only [hostOp, hread]
    exact .quiet s.wdrop (s.hostPos + 1) log draws
  | wr idx v =>
    simp only [hostOp]
    rcases hostWrite_cases idx v hrst with ⟨hsoft, hwrite⟩ | ⟨-, -, hwrite⟩ | ⟨hsoft, hidle, hwrite⟩
    · rw [hwrite]
      exact .reset (advance s) hsoft rfl
    · rw [hwrite]
      exact .quiet true (s.hostPos + 1) s.readLog s.draws
    · rw [hwrite]
      exact .write (regAt idx) v hidle hsoft
  | wait =>
    obtain ⟨log, draws, hread⟩ := recordRead_hostRead_eq statusIdx s
    simp only [hostOp, hread]
    split
    · exact .quiet s.wdrop s.hostPos log draws
    · exact .quiet s.wdrop (s.hostPos + 1) log draws
  | waitIrq =>
    simp only [hostOp]
    split
    · exact .quiet s.wdrop (s.hostPos + 1) s.readLog s.draws
    · exact .quiet s.wdrop s.hostPos s.readLog s.draws
  | rstN level =>
    simp only [hostOp]
    rcases driveResetPin_cases level s with ⟨-, -, hpin⟩ | ⟨hlow, hpin⟩
    · rw [hpin]
      exact .quiet s.wdrop (s.hostPos + 1) s.readLog s.draws
    · have hlevel : level = false := hlow.resolve_left (by simp [hrst])
      rw [hpin]
      exact .reset (advance { s with rstN := level }) (by simp [isReset, hlevel]) rfl

@[simp] theorem writeReg_variant (reg : Reg) (v : Word) (s : State) : (writeReg reg v s).variant = s.variant := by
  cases reg with
  | ctrl => simp only [writeReg]; split <;> rfl
  | _ => rfl

@[simp] theorem hostWrite_variant (idx : BitVec 8) (v : Word) (s : State) :
    (hostWrite idx v s).variant = s.variant := by
  by_cases hrst : s.rstN = true
  · rcases hostWrite_cases idx v hrst with ⟨-, hwrite⟩ | ⟨-, -, hwrite⟩ | ⟨-, -, hwrite⟩ <;> rw [hwrite]
    · rfl
    · exact writeReg_variant _ v s
  · simp [hostWrite, hrst]

/-- No operation of the host changes the build's variant (R6), held in reset or not. -/
@[simp] theorem hostOp_variant (op : HostOp) (s : State) : (hostOp op s).variant = s.variant := by
  cases op with
  | rd idx =>
    obtain ⟨log, draws, hread⟩ := recordRead_hostRead_eq idx s
    simp only [hostOp, hread]
    rfl
  | wr idx v => exact hostWrite_variant idx v s
  | wait =>
    obtain ⟨log, draws, hread⟩ := recordRead_hostRead_eq statusIdx s
    simp only [hostOp, hread]
    split <;> rfl
  | waitIrq => simp only [hostOp]; split <;> rfl
  | rstN level =>
    simp only [hostOp]
    rcases driveResetPin_cases level s with ⟨-, -, hpin⟩ | ⟨-, hpin⟩ <;> rw [hpin] <;> rfl

@[simp] theorem hostTurn_variant (s : State) : (hostTurn s).variant = s.variant := by
  rcases hostTurn_cases s with ⟨-, hturn⟩ | ⟨op, -, hturn⟩ <;> rw [hturn]
  exact hostOp_variant op s

/-- What one step can lead to. -/
inductive StepLeads (s : State) : State → Prop
  /-- A reset of the block, or a step with the pin low (R261, R262). -/
  | reset (u : State) (hreset : ResetNext s) (hvariant : u.variant = s.variant) : StepLeads s (blockReset u)
  /-- The engine runs the accepted command (R233). -/
  | command (i : Instr) (t : State) (hrst : s.rstN = true) (hturn : engineTurn s = true)
      (hdecode : decode s.pending = .ok i) (hrun : exec i s = .next t) : StepLeads s t
  /-- The engine completes an illegal word (R234). -/
  | illegal (e : Illegal) (hrst : s.rstN = true) (hturn : engineTurn s = true) (hdecode : decode s.pending = .error e) :
    StepLeads s (complete .opc s)
  /-- A host turn that neither resets the block nor writes a register, or none when the program has ended. -/
  | quiet (wdrop : Bool) (hostPos : Nat) (readLog : List Word) (delay draws : Nat) :
    StepLeads s (s.withHost wdrop hostPos readLog delay draws)
  /-- The host writes a register while idle, and it is no soft reset (R65). -/
  | write (reg : Reg) (v : Word) (hidle : s.busy = false) (hsoft : isSoftReset reg v = false) :
    StepLeads s (advance (writeReg reg v s))

theorem countTurn_idle {s : State} (hidle : s.busy = false) : countTurn s = s := by simp [countTurn, hidle]

theorem step_leads {s t : State} (h : step s = .next t) : StepLeads s t := by
  rcases turn_cases h with ⟨hrst, e⟩ | ⟨hrst, hturn, i, hdecode, e⟩ | ⟨hrst, hturn, ⟨cause, hdecode⟩, e⟩ |
    ⟨hrst, hturn, e⟩
  · obtain rfl := Host.Outcome.next.inj e
    exact .reset _ (.inl hrst) (hostTurn_variant s)
  · exact .command i t hrst hturn hdecode e.symm
  · obtain rfl := Host.Outcome.next.inj e
    exact .illegal cause hrst hturn hdecode
  · obtain rfl := Host.Outcome.next.inj e
    have counted := countTurn_eq s
    rcases hostTurn_cases (countTurn s) with ⟨-, hhost⟩ | ⟨op, hop, hhost⟩
    · rw [hhost, counted]
      exact .quiet s.wdrop s.hostPos s.readLog _ s.draws
    · rw [hhost]
      have hrst' : (countTurn s).rstN = true := by rw [counted]; exact hrst
      have hop' : s.program[s.hostPos]? = some op := by rw [counted] at hop; exact hop
      generalize hafter : hostOp op (countTurn s) = t
      have leads := hafter ▸ hostOp_leads op hrst'
      cases leads with
      | reset u hreset hvariant =>
        exact .reset u (.inr ⟨hturn, op, hop', hreset⟩) (by rw [hvariant, counted])
      | quiet wdrop hostPos readLog draws =>
        rw [counted]
        exact .quiet wdrop hostPos readLog _ draws
      | write reg v hidle hsoft =>
        have hidle' : s.busy = false := by rw [counted] at hidle; exact hidle
        rw [countTurn_idle hidle']
        exact .write reg v hidle' hsoft

end Sys2Proof.Machine
end

section
/-!
PROOFS, invariants of the lifecycle and of the residues (spec/60_exceptions.md R232, R233, R237; spec/10_state.md R44,
R47): what a host write leaves to the engine, then the two invariants step by step.
-/

namespace Sys2Proof.Machine

/-- `t` agrees with `s` on the build's variant and on all that only the engine writes (R58). -/
structure KeepsEngineState (s t : State) : Prop where
  variant : t.variant = s.variant
  eq : t.eq = s.eq
  cvalid : t.cvalid = s.cvalid
  cstream : t.cstream = s.cstream
  craw : t.craw = s.craw
  avalid : t.avalid = s.avalid
  pphase : t.pphase = s.pphase
  tvalid : t.tvalid = s.tvalid
  bctr : t.bctr = s.bctr
  kpos : t.kpos = s.kpos
  dout : t.dout = s.dout
  hout : t.hout = s.hout
  fr : t.fr = s.fr
  tag : t.tag = s.tag
  h : t.h = s.h
  r : t.r = s.r
  pad : t.pad = s.pad
  sk : t.sk = s.sk
  n12 : t.n12 = s.n12
  ks : t.ks = s.ks
  ckey : t.ckey = s.ckey
  cnonce : t.cnonce = s.cnonce
  cctr0 : t.cctr0 = s.cctr0

/-- A register write that is no soft reset touches nothing that only the engine writes (R58, R65). -/
theorem writeReg_keepsEngineState {reg : Reg} {v : Word} (s : State) (hsoft : isSoftReset reg v = false) :
    KeepsEngineState s (writeReg reg v s) := by
  cases reg with
  | ctrl =>
    have hbit : v.getLsbD 1 = false := by simpa [isSoftReset] using hsoft
    simp only [writeReg, hbit]
    constructor <;> rfl
  | _ => constructor <;> rfl

/-- No command's rule writes `ERR` or `ERRCODE`: only its completion does (R236). -/
theorem effect_errorReport (i : Instr) (s : State) : (effect i s).err = s.err ∧ (effect i s).errcode = s.errcode := by
  cases i with
  | cXor len z =>
    simp only [effect]
    rw [xorBytes_frame]
    exact ⟨rfl, rfl⟩
  | _ => simp only [effect, and_self]

theorem beforeRaise_errorReport (i : Instr) (s : State) :
    (beforeRaise i s).err = s.err ∧ (beforeRaise i s).errcode = s.errcode := by
  cases i <;> exact ⟨rfl, rfl⟩

theorem beforeCompletion_errorReport (i : Instr) (s : State) :
    (beforeCompletion i s).err = s.err ∧ (beforeCompletion i s).errcode = s.errcode :=
  beforeCompletion_of (P := fun u => u.err = s.err ∧ u.errcode = s.errcode) (effect_errorReport i s)
    (beforeRaise_errorReport i s)

theorem lifecycleInv_resetFor (v : PolyVariant) : LifecycleInv (State.resetFor v) := by
  constructor <;> simp

/-- A completion leaves no command in flight, and sets `ERR` and `ERRCODE` together (R233). -/
theorem complete_keeps_lifecycleInv (code : ErrCode) {s : State} (h : s.err = true ↔ s.errcode ≠ .none) :
    LifecycleInv (complete code s) := by
  refine ⟨by simp, ?_⟩
  by_cases hcode : code = .none <;> simp [hcode, h]

/-- Every register write while idle keeps the lifecycle: acceptance clears what completion reports (R232), and `STATUS`
clears `ERR` and `ERRCODE` together (R30). -/
theorem writeReg_keeps_lifecycleInv (reg : Reg) (v : Word) {s : State} (hidle : s.busy = false) (h : LifecycleInv s) :
    LifecycleInv (writeReg reg v s) := by
  obtain ⟨-, herr⟩ := h
  cases reg with
  | ctrl =>
    simp only [writeReg]
    split
    · exact lifecycleInv_resetFor s.variant
    · exact ⟨by simp [hidle], herr⟩
  | status =>
    refine ⟨by simp [writeReg, hidle], ?_⟩
    cases hclear : v.getLsbD 2 <;> simp [writeReg, hclear, herr, and_comm]
  | cmd => exact ⟨by simp [writeReg], by simp [writeReg]⟩
  | _ => exact ⟨by simp [writeReg, hidle], herr⟩

/-- Settles O54, by what a step can lead to. -/
theorem stepKeepsLifecycleInv : Obligations.StepKeepsLifecycleInv := by
  unfold Obligations.StepKeepsLifecycleInv
  intro s t h hstep
  cases step_leads hstep with
  | reset u => exact lifecycleInv_resetFor u.variant
  | command i t hrst hturn hdecode hrun =>
    rw [eq_complete_of_exec hrun]
    obtain ⟨herr, hcode⟩ := beforeCompletion_errorReport i s
    exact complete_keeps_lifecycleInv _ (by rw [herr, hcode]; exact h.2)
  | illegal => exact complete_keeps_lifecycleInv .opc h.2
  | quiet => exact h
  | write reg v hidle => exact writeReg_keeps_lifecycleInv reg v hidle h

theorem reducedInv_resetFor (v : PolyVariant) : ReducedInv (State.resetFor v) := by
  constructor <;> simp [fieldPrime]

/-- The accumulator P_FINAL adds the pad to is a canonical residue (R204). -/
theorem finalAccumulator_lt {s : State} (h : s.h.toNat < fieldPrime) : (finalAccumulator s).toNat < fieldPrime := by
  unfold finalAccumulator
  split
  · rw [residue_fits (fold_lt _ _ _)]
    exact fold_lt _ _ _
  · exact h

/-- Every result a command puts in `H` or `FR` is 0, a sum, a product or a fold modulo p (R181, R182, R202). -/
theorem effect_keeps_reducedInv (i : Instr) {s : State} (hinv : ReducedInv s) : ReducedInv (effect i s) := by
  obtain ⟨hh, hfr⟩ := hinv
  cases i with
  | cXor len z =>
    simp only [effect]
    rw [xorBytes_frame]
    exact ⟨hh, hfr⟩
  | fadd => exact ⟨hh, (residue_fits (fieldAdd_lt _ _)).trans_lt (fieldAdd_lt _ _)⟩
  | fmul => exact ⟨hh, (residue_fits (fieldMul_lt _ _)).trans_lt (fieldMul_lt _ _)⟩
  | pInit => exact ⟨by simp [effect, fieldPrime], hfr⟩
  | pStart => exact ⟨by simp [effect, fieldPrime], hfr⟩
  | pBlock len => exact ⟨(residue_fits (fold_lt _ _ _)).trans_lt (fold_lt _ _ _), hfr⟩
  | pFinal => exact ⟨finalAccumulator_lt hh, hfr⟩
  | _ =>
    simp only [effect]
    exact ⟨hh, hfr⟩

theorem beforeRaise_keeps_reducedInv (i : Instr) {s : State} (h : ReducedInv s) : ReducedInv (beforeRaise i s) := by
  cases i <;> exact h

/-- Settles O55, by what a step can lead to: only commands write `H` and `FR`. -/
theorem stepKeepsReducedInv : Obligations.StepKeepsReducedInv := by
  unfold Obligations.StepKeepsReducedInv
  intro s t hinv hstep
  cases step_leads hstep with
  | reset u => exact reducedInv_resetFor u.variant
  | command i t hrst hturn hdecode hrun =>
    rw [eq_complete_of_exec hrun]
    exact beforeCompletion_of (P := ReducedInv) (effect_keeps_reducedInv i hinv) (beforeRaise_keeps_reducedInv i hinv)
  | illegal => exact hinv
  | quiet => exact hinv
  | write reg v hidle hsoft =>
    have kept := writeReg_keepsEngineState s hsoft
    simpa [ReducedInv, kept.h, kept.fr] using hinv

end Sys2Proof.Machine
end

section
/-!
PROOFS, the register window (spec/10_state.md R23 to R56, spec/20_memory.md R64 to R66): which index names which register,
read after write, and what a read returns after reset.
-/

namespace Sys2Proof.Machine

/-- A listed register stands at one word index only (R23). -/
theorem regAt_eq_iff {reg : Reg} {off : Nat} (hoff : regOffset reg = some off) (idx : BitVec 8) :
    regAt idx = reg ↔ idx = idxOf off := by
  constructor
  · rintro rfl
    exact (idxOf_regOffset idx off hoff).symm
  · rintro rfl
    exact regAt_regOffset reg off hoff

theorem memRead_regOffset (s : State) (reg : Reg) {off : Nat} (hoff : regOffset reg = some off) :
    memRead s (idxOf off) = readReg s reg := by
  rw [memRead, regAt_regOffset reg off hoff]

/-- No register of R23's table stands in a gap R26 lists. -/
theorem not_reservedOffset_regOffset {reg : Reg} {off : Nat} (hoff : regOffset reg = some off) :
    ¬ reservedOffset off ∧ off % 4 = 0 ∧ off < 0x400 := by
  cases reg <;> simp only [regOffset, Option.some.injEq, reduceCtorEq] at hoff
  all_goals
    unfold reservedOffset
    omega

theorem regOffset_eq_none {reg : Reg} : regOffset reg = none ↔ reg = .reserved := by
  cases reg <;> simp [regOffset]

/-- The gaps R26 lists hold no register. -/
theorem regAt_reserved {off : Nat} (h : reservedOffset off) : regAt (idxOf off) = .reserved := by
  rw [← regOffset_eq_none, Option.eq_none_iff_forall_ne_some]
  intro listed hoff
  obtain ⟨hnot, haligned, hlt⟩ := not_reservedOffset_regOffset hoff
  have sameIndex : (idxOf listed).toNat = (idxOf off).toNat := by rw [idxOf_regOffset _ listed hoff]
  simp only [idxOf, BitVec.toNat_ofNat] at sameIndex
  obtain ⟨haligned', hgap⟩ := h
  have same : listed = off := by omega
  exact hnot (same ▸ ⟨haligned', hgap⟩)

/-! ### Words of a multi-word integer register -/

theorem getLsbD_setNumWord {n : Nat} (x : BitVec n) (i : Nat) (v : Word) (m : Nat) :
    (setNumWord x i v).getLsbD m =
      if 32 * i ≤ m ∧ m < 32 * i + 32 then decide (m < n) && v.getLsbD (m - 32 * i) else x.getLsbD m := by
  have ones : (0xFFFFFFFF#32).getLsbD (m - 32 * i) = decide (m - 32 * i < 32) := by
    rw [show 0xFFFFFFFF#32 = BitVec.allOnes 32 from rfl, BitVec.getLsbD_allOnes]
  simp only [setNumWord, BitVec.getLsbD_or, BitVec.getLsbD_and, BitVec.getLsbD_not, BitVec.getLsbD_shiftLeft,
    BitVec.getLsbD_setWidth, ones]
  by_cases hm : m < n
  · by_cases hword : 32 * i ≤ m ∧ m < 32 * i + 32
    · simp [hm, hword, show m - 32 * i < n by omega, show m - 32 * i < 32 by omega, show ¬ m < 32 * i by omega]
    · have outside : m < 32 * i ∨ (¬ m - 32 * i < 32 ∧ v.getLsbD (m - 32 * i) = false) := by
        by_cases hbelow : m < 32 * i
        · exact .inl hbelow
        · exact .inr ⟨by omega, v.getLsbD_of_ge _ (by omega)⟩
      rcases outside with hbelow | ⟨habove, hv⟩
      · simp [hm, hword, hbelow]
      · simp [hm, hword, habove, hv]
  · simp [hm, x.getLsbD_of_ge m (by omega)]

theorem getLsbD_numWord {n : Nat} (x : BitVec n) (i k : Nat) :
    (numWord x i).getLsbD k = (decide (k < 32) && x.getLsbD (32 * i + k)) := by
  simp [numWord]

/-- A word of the register reads as the value written to it, the bits the register has (R42, R65). -/
theorem getLsbD_numWord_setNumWord_same {n : Nat} (x : BitVec n) (i : Nat) (v : Word) (k : Nat) :
    (numWord (setNumWord x i v) i).getLsbD k = (decide (32 * i + k < n) && v.getLsbD k) := by
  rw [getLsbD_numWord, getLsbD_setNumWord]
  by_cases hk : k < 32
  · simp [hk]
  · simp [hk, BitVec.getLsbD_of_ge v k (by omega)]

/-- A word the register has in full reads as the value written to it. -/
theorem numWord_setNumWord_full {n : Nat} (x : BitVec n) {i : Nat} (v : Word) (h : 32 * i + 32 ≤ n) :
    numWord (setNumWord x i v) i = v := by
  apply BitVec.eq_of_getLsbD_eq
  intro k hk
  rw [getLsbD_numWord_setNumWord_same]
  simp [show 32 * i + k < n by omega]

/-- Word 4 of a 130-bit register keeps bits [1:0] of the value written to it (R42). -/
theorem numWord_setNumWord_top (x : BitVec 130) (v : Word) : numWord (setNumWord x 4 v) 4 = v &&& 3 := by
  apply BitVec.eq_of_getLsbD_eq
  intro k hk
  rw [getLsbD_numWord_setNumWord_same, BitVec.getLsbD_and, Bool.and_comm]
  congr 1
  interval_cases k <;> rfl

/-- A word of a field operand reads as the value written to it, of word 4 the bits [1:0] (R42, R43). -/
theorem numWord_setNumWord_operand (x : BitVec 130) (i : Fin 5) (v : Word) :
    numWord (setNumWord x i v) i = if i = 4 then v &&& 3 else v := by
  by_cases htop : i = 4
  · rw [if_pos htop, htop]
    exact numWord_setNumWord_top x v
  · rw [if_neg htop]
    exact numWord_setNumWord_full x v (by omega)

/-- No other word of the register changes (R65). -/
theorem numWord_setNumWord_other {n : Nat} (x : BitVec n) {i j : Nat} (v : Word) (h : j ≠ i) :
    numWord (setNumWord x i v) j = numWord x j := by
  apply BitVec.eq_of_getLsbD_eq
  intro k hk
  rw [getLsbD_numWord, getLsbD_numWord, getLsbD_setNumWord, if_neg (by omega)]

theorem toNat_numWord {n : Nat} (x : BitVec n) (i : Nat) : (numWord x i).toNat = x.toNat / 2 ^ (32 * i) % 2 ^ 32 := by
  rw [numWord, BitVec.extractLsb'_toNat, Nat.shiftRight_eq_div_pow]

/-- A word write changes no other word of a register array (R66). -/
theorem getElem_set_other {n : Nat} (A : Vector Word n) {i j : Fin n} (v : Word) (h : j ≠ i) :
    (A.set i v)[j] = A[j] :=
  Vector.getElem_set_ne i.isLt j.isLt fun e => h (Fin.ext e.symm)

end Sys2Proof.Machine
end

section
/-!
PROOFS, the register window as the host sees it (spec/10_state.md R23, R29, R30, R42, R43; spec/20_memory.md R64 to R66;
spec/70_reset_and_hazards.md R261).
-/

namespace Sys2Proof.Machine

@[simp] theorem regAt_ctrlIdx : regAt ctrlIdx = .ctrl := regAt_regOffset .ctrl 0x00C rfl
@[simp] theorem regAt_statusIdx : regAt statusIdx = .status := regAt_regOffset .status 0x010 rfl

/-! ### Read after write -/

/-- A write to an RW data register stores the value, without the bits the register does not have (R65, R66). -/
theorem readReg_writeReg_same {reg : Reg} (v : Word) (s : State) (h : storesValue reg = true) :
    readReg (writeReg reg v s) reg = storedWord reg v := by
  cases reg with
  | ctrin => rfl
  | keyin i => exact Vector.getElem_set_self i.isLt
  | noncein i => exact Vector.getElem_set_self i.isLt
  | st i => exact Vector.getElem_set_self i.isLt
  | din i => exact Vector.getElem_set_self i.isLt
  | pkeyin i => exact Vector.getElem_set_self i.isLt
  | fa i => exact numWord_setNumWord_operand s.fa i v
  | fb i => exact numWord_setNumWord_operand s.fb i v
  | tagin i => exact numWord_setNumWord_full s.tagin v (by omega)
  | _ => cases h

/-- A write to an RW data register changes no other register (R65, R66). -/
theorem readReg_writeReg_other {reg other : Reg} (v : Word) (s : State) (h : storesValue reg = true)
    (hne : other ≠ reg) : readReg (writeReg reg v s) other = readReg s other := by
  cases reg <;> cases h <;> cases other <;> try rfl
  case ctrin.refl.ctrin => exact absurd rfl hne
  case keyin.refl.keyin i j => exact getElem_set_other s.keyin v fun e => hne (e ▸ rfl)
  case noncein.refl.noncein i j => exact getElem_set_other s.noncein v fun e => hne (e ▸ rfl)
  case st.refl.st i j => exact getElem_set_other s.st v fun e => hne (e ▸ rfl)
  case din.refl.din i j => exact getElem_set_other s.din v fun e => hne (e ▸ rfl)
  case pkeyin.refl.pkeyin i j => exact getElem_set_other s.pkeyin v fun e => hne (e ▸ rfl)
  case fa.refl.fa i j => exact numWord_setNumWord_other s.fa v fun e => hne (Fin.ext e ▸ rfl)
  case fb.refl.fb i j => exact numWord_setNumWord_other s.fb v fun e => hne (Fin.ext e ▸ rfl)
  case tagin.refl.tagin i j => exact numWord_setNumWord_other s.tagin v fun e => hne (Fin.ext e ▸ rfl)

theorem regOffset_of_storesValue {reg : Reg} (h : storesValue reg = true) : ∃ off, regOffset reg = some off := by
  cases reg <;> cases h <;> exact ⟨_, rfl⟩

/-- Settles O18, by read after write on registers: an RW data register stands at one index only. -/
theorem idleWriteStoresOneWord : Obligations.IdleWriteStoresOneWord := by
  unfold Obligations.IdleWriteStoresOneWord
  intro s idx v hrst hidle hstores
  rw [hostWrite_idle idx v hrst hidle]
  refine ⟨readReg_writeReg_same v s hstores, fun j hne => ?_⟩
  obtain ⟨off, hoff⟩ := regOffset_of_storesValue hstores
  have otherReg : regAt j ≠ regAt idx := by
    rw [Ne, regAt_eq_iff hoff, idxOf_regOffset idx off hoff]
    exact hne
  exact readReg_writeReg_other v s hstores otherReg

theorem writeReg_of_ignoresWrite {reg : Reg} (v : Word) (s : State) (h : ignoresWrite reg = true) :
    writeReg reg v s = s := by
  cases reg <;> cases h <;> rfl

/-- Settles O19. -/
theorem readOnlyOffsetsIgnoreWrites : Obligations.ReadOnlyOffsetsIgnoreWrites := by
  unfold Obligations.ReadOnlyOffsetsIgnoreWrites
  intro s idx v hrst hidle hignores
  rw [hostWrite_idle idx v hrst hidle]
  exact writeReg_of_ignoresWrite v s hignores

/-! ### `STATUS` and `CTRL` -/

/-- The word read after a `STATUS` write: the W1C bits written 1 are cleared, and with `ERR` the code's nibble (R30). -/
theorem statusWord_writeStatus (v : Word) (s : State) :
    statusWord (writeStatus v s) =
      statusWord s &&& ~~~(v &&& 0x00008006#32) &&& (if v.getLsbD 2 then ~~~0x000000F0#32 else ~~~0#32) := by
  have code : errCodeBits (writeStatus v s).errcode = if v.getLsbD 2 then 0 else errCodeBits s.errcode := by
    rw [writeStatus_errcode, apply_ite errCodeBits]
    rfl
  apply BitVec.eq_of_getLsbD_eq
  intro k hk
  simp only [statusWord, code, BitVec.getLsbD_append, BitVec.getLsbD_and, BitVec.getLsbD_not]
  cases v.getLsbD 2 <;> interval_cases k <;> simp

/-- Settles O20, by the word of `STATUS` bit for bit. -/
theorem statusWriteOneToClear : Obligations.StatusWriteOneToClear := by
  unfold Obligations.StatusWriteOneToClear
  intro s v hrst hidle
  have write : hostWrite statusIdx v s = writeStatus v s := by
    rw [hostWrite_idle statusIdx v hrst hidle, regAt_statusIdx]
    rfl
  rw [write]
  exact ⟨statusWord_writeStatus v s, rfl⟩

/-- Settles O21. -/
theorem ctrlWriteSetsInterruptEnable : Obligations.CtrlWriteSetsInterruptEnable := by
  unfold Obligations.CtrlWriteSetsInterruptEnable
  intro s v hrst hidle hbit
  have write : hostWrite ctrlIdx v s = { s with ie := v.getLsbD 0 } := by
    rw [hostWrite_idle ctrlIdx v hrst hidle, regAt_ctrlIdx]
    simp only [writeReg, hbit]
    rfl
  rw [write, memRead, regAt_ctrlIdx]
  refine ⟨rfl, ?_⟩
  apply BitVec.eq_of_getLsbD_eq
  intro k hk
  simp only [readReg, ctrlWord, BitVec.getLsbD_append, BitVec.getLsbD_and]
  interval_cases k <;> simp

/-! ### What a read returns -/

theorem toNat_append {m n : Nat} (x : BitVec m) (y : BitVec n) : (x ++ y).toNat = x.toNat * 2 ^ n + y.toNat := by
  rw [BitVec.toNat_append, ← Nat.shiftLeft_add_eq_or_of_lt y.isLt, Nat.shiftLeft_eq]

/-- The fields of `STATUS` stand at R30's bit numbers. -/
theorem toNat_statusWord (s : State) : (statusWord s).toNat = statusValue s := by
  have fields : statusValue s =
      s.busy.toNat + s.done.toNat * 2 ^ 1 + s.err.toNat * 2 ^ 2 + s.eq.toNat * 2 ^ 3 +
      (errCodeBits s.errcode).toNat * 2 ^ 4 + s.cvalid.toNat * 2 ^ 8 + s.cstream.toNat * 2 ^ 9 +
      s.craw.toNat * 2 ^ 10 + s.avalid.toNat * 2 ^ 11 + (pphaseBits s.pphase).toNat * 2 ^ 12 +
      s.tvalid.toNat * 2 ^ 14 + s.wdrop.toNat * 2 ^ 15 := by
    unfold statusValue
    cases s.errcode <;> cases s.pphase <;> rfl
  simp only [fields, statusWord, toNat_append, BitVec.toNat_ofBool, BitVec.toNat_zero]
  omega

/-- A word of a multi-word integer register reads as bits 32i+31 to 32i (R24). -/
theorem toNat_memRead_regOffset (s : State) (reg : Reg) {n off i : Nat} {x : BitVec n} (hoff : regOffset reg = some off)
    (hreg : readReg s reg = numWord x i) : (memRead s (idxOf off)).toNat = x.toNat / 2 ^ (32 * i) % 2 ^ 32 := by
  rw [memRead_regOffset s reg hoff, hreg, toNat_numWord]

/-- Settles O16, by the offset of each register. -/
theorem windowMapReads : Obligations.WindowMapReads := by
  unfold Obligations.WindowMapReads
  intro s
  have word := memRead_regOffset s
  have value := toNat_memRead_regOffset s
  refine ⟨word .id rfl, word .version rfl, ?cap, ?ctrl, ?status, word .cmd rfl, word .ctrin rfl, word .bctr rfl, ?kpos,
    fun i => word (.keyin i) rfl, fun i => word (.noncein i) rfl, fun i => word (.st i) rfl, fun i => word (.din i) rfl,
    fun i => word (.dout i) rfl, fun i => word (.hout i) rfl, fun i => word (.pkeyin i) rfl,
    fun i => value (.fa i) rfl rfl, fun i => value (.fb i) rfl rfl, fun i => value (.fr i) rfl rfl,
    fun i => value (.tag i) rfl rfl, fun i => value (.tagin i) rfl rfl, fun i => value (.h i) rfl rfl,
    fun i => value (.r i) rfl rfl, fun i => value (.pad i) rfl rfl, fun i => word (.sk i) rfl, fun i => word (.n12 i) rfl,
    fun i => word (.ks i) rfl, fun i => word (.ckey i) rfl, fun i => word (.cnonce i) rfl, word .cctr0 rfl, ?reserved⟩
  case cap =>
    rw [word .cap rfl, readReg]
    cases s.variant <;> rfl
  case ctrl =>
    rw [word .ctrl rfl, readReg, ctrlWord]
    cases s.ie <;> rfl
  case status => rw [word .status rfl, readReg, toNat_statusWord]
  case kpos => rw [word .kpos rfl, readReg, BitVec.toNat_setWidth_of_le (by omega)]
  case reserved =>
    intro off hoff
    rw [memRead, regAt_reserved hoff]
    rfl

/-! ### The window after reset -/

/-- What each register reads after reset (R23, R261). -/
theorem readReg_resetFor (v : PolyVariant) (reg : Reg) :
    readReg (State.resetFor v) reg =
      if reg = .id then 0x50324358#32 else if reg = .version then 1 else if reg = .cap then v.cap else 0 := by
  cases reg with
  | kpos => rfl
  | _ => simp [readReg, numWord, ctrlWord, statusWord, errCodeBits, pphaseBits]

theorem memRead_resetFor (v : PolyVariant) (idx : BitVec 8) : memRead (State.resetFor v) idx = resetWord v idx := by
  have hid : regAt idx = .id ↔ idx = 0 := regAt_eq_iff (off := 0x000) rfl idx
  have hversion : regAt idx = .version ↔ idx = 1 := regAt_eq_iff (off := 0x004) rfl idx
  have hcap : regAt idx = .cap ↔ idx = 2 := regAt_eq_iff (off := 0x008) rfl idx
  simp only [memRead, readReg_resetFor, resetWord, hid, hversion, hcap]

/-- Either reset leaves every word of the window at its reset value, the variant kept (R261, R262). -/
theorem memRead_blockReset (s : State) (idx : BitVec 8) : memRead (blockReset s) idx = resetWord s.variant idx := by
  rw [← memRead_resetFor]
  unfold memRead
  cases regAt idx <;> rfl

/-- Settles O24. -/
theorem resetValuesOfTheWindow : Obligations.ResetValuesOfTheWindow := by
  unfold Obligations.ResetValuesOfTheWindow
  exact fun v idx => ⟨memRead_resetFor v idx, rfl⟩

end Sys2Proof.Machine
end

section
/-!
PROOFS, what commands write and read (spec/10_state.md R37, R58; spec/42_subkey.md R141 to R143), and the cipher object
(spec/10_state.md R53 to R55).
-/

namespace Sys2Proof.Machine

/-! ### Every command's frame over the window -/

/-- Completion shows in `STATUS` only (R233). -/
theorem readReg_complete (code : ErrCode) (s : State) {reg : Reg} (h : reg ≠ .status) :
    readReg (complete code s) reg = readReg s reg := by
  cases reg with
  | status => exact absurd rfl h
  | _ => rfl

/-- The XOR loop shows in `DOUT`, `KS`, `BCTR` and `KPOS` only (R158). -/
theorem readReg_xorBytes (len : Nat) (z : Bool) (s : State) {reg : Reg} (h : mayWrite (.cXor len z) reg = false) :
    readReg (xorBytes z len s) reg = readReg s reg := by
  rw [xorBytes_frame]
  cases reg <;> cases h <;> rfl

/-- A command's effect shows only in registers its rule writes (R58). -/
theorem readReg_effect {i : Instr} {reg : Reg} (s : State) (h : mayWrite i reg = false) :
    readReg (effect i s) reg = readReg s reg := by
  cases i with
  | cXor len z => exact readReg_xorBytes len z s h
  | _ => cases reg <;> cases h <;> simp only [effect, readReg, ctrlWord]

/-- The assignments before a raise show in `STATUS` only (R236). -/
theorem readReg_beforeRaise (i : Instr) {reg : Reg} (s : State) (h : reg ≠ .status) :
    readReg (beforeRaise i s) reg = readReg s reg := by
  cases i with
  | cInit | pInit | tagcmp =>
    cases reg with
    | status => exact absurd rfl h
    | _ => rfl
  | _ => rfl

theorem mayWrite_status (i : Instr) : mayWrite i .status = true := by cases i <;> rfl

/-- Settles O13, by the frame of a command's rule and that of its completion. -/
theorem commandsWriteOnlyTheirRegisters : Obligations.CommandsWriteOnlyTheirRegisters := by
  unfold Obligations.CommandsWriteOnlyTheirRegisters
  intro i s t idx hrun hreg
  have notStatus : regAt idx ≠ .status := by
    intro hstatus
    rw [hstatus, mayWrite_status] at hreg
    cases hreg
  rw [eq_complete_of_exec hrun, memRead, readReg_complete _ _ notStatus]
  exact beforeCompletion_of (P := fun u => readReg u (regAt idx) = readReg s (regAt idx)) (readReg_effect s hreg)
    (readReg_beforeRaise i s notStatus)

/-! ### The permutation state -/

/-- The state with another permutation state in `S`. -/
def State.withS (s : State) (X : Vector Word 16) : State := { s with st := X }

theorem xorByte_withS (z : Bool) (j : Nat) (s : State) (X : Vector Word 16) :
    xorByte z j (s.withS X) = (xorByte z j s).withS X := by
  unfold xorByte refill State.withS
  by_cases hrefill : s.kpos = 64 <;> simp only [hrefill, if_true, if_false]

/-- The XOR loop neither reads nor writes `S` (R37, R158). -/
theorem xorBytes_withS (z : Bool) (n : Nat) (s : State) (X : Vector Word 16) :
    xorBytes z n (s.withS X) = (xorBytes z n s).withS X := by
  induction n with
  | zero => rfl
  | succ n ih => simp only [xorBytes, ih, xorByte_withS]

theorem xorBytes_st (z : Bool) (n : Nat) (s : State) : (xorBytes z n s).st = s.st := by rw [xorBytes_frame]

/-- Outside the permutation commands a rule's effect commutes with any change of `S` (R37, R58). -/
theorem effect_withS {i : Instr} (s : State) (X : Vector Word 16) (h : isPermutation i = false) :
    effect i (s.withS X) = (effect i s).withS X := by
  cases i with
  | cXor len z => exact xorBytes_withS z len s X
  | qr | colround | diaground | doubleround | perm | permff => cases h
  | _ => rfl

theorem effect_st {i : Instr} (s : State) (h : isPermutation i = false) : (effect i s).st = s.st := by
  cases i with
  | cXor len z => exact xorBytes_st z len s
  | qr | colround | diaground | doubleround | perm | permff => cases h
  | _ => rfl

theorem completionCode_withS (i : Instr) (s : State) (X : Vector Word 16) :
    completionCode i (s.withS X) = completionCode i s := by
  cases i <;> rfl

theorem beforeRaise_withS (i : Instr) (s : State) (X : Vector Word 16) :
    beforeRaise i (s.withS X) = (beforeRaise i s).withS X := by
  cases i <;> rfl

theorem beforeRaise_st (i : Instr) (s : State) : (beforeRaise i s).st = s.st := by
  cases i <;> rfl

theorem beforeCompletion_withS {i : Instr} (s : State) (X : Vector Word 16) (h : isPermutation i = false) :
    beforeCompletion i (s.withS X) = (beforeCompletion i s).withS X := by
  simp only [beforeCompletion, completionCode_withS, effect_withS s X h, beforeRaise_withS]
  split <;> rfl

/-- Settles O14: neither the checks nor the rule of such a command see `S`. -/
theorem onlyPermutationCommandsUseS : Obligations.OnlyPermutationCommandsUseS := by
  unfold Obligations.OnlyPermutationCommandsUseS
  intro i s t X hperm hrun
  rw [eq_complete_of_exec hrun]
  constructor
  · exact beforeCompletion_of (P := fun u => u.st = s.st) (effect_st s hperm) (beforeRaise_st i s)
  · have commutes := beforeCompletion_withS s X hperm
    have code := completionCode_withS i s X
    unfold State.withS at commutes code
    rw [exec_eq_complete, commutes, code]
    rfl

/-! ### HCHACHA -/

/-- Settles O37: HCHACHA selects from what PERM leaves in `S`. -/
theorem hchachaSelectsEightWords : Obligations.HchachaSelectsEightWords := by
  unfold Obligations.HchachaSelectsEightWords
  intro s
  exact ⟨_, _, finish_eq _, rfl, finish_eq _, rfl⟩

/-! ### The cipher object -/

/-- `t` holds the cipher object's key, nonce and counter of `s`. -/
def SameCipherObject (s t : State) : Prop := t.ckey = s.ckey ∧ t.cnonce = s.cnonce ∧ t.cctr0 = s.cctr0

theorem effect_sameCipherObject {i : Instr} (s : State) (h : ∀ klen nlen raw, i ≠ .cInit klen nlen raw) :
    SameCipherObject s (effect i s) := by
  cases i with
  | cXor len z =>
    simp only [effect]
    rw [xorBytes_frame]
    exact ⟨rfl, rfl, rfl⟩
  | cInit klen nlen raw => exact absurd rfl (h klen nlen raw)
  | _ => simp only [effect]; exact ⟨rfl, rfl, rfl⟩

theorem beforeRaise_sameCipherObject (i : Instr) (s : State) : SameCipherObject s (beforeRaise i s) := by
  cases i <;> exact ⟨rfl, rfl, rfl⟩

/-- Settles O15, by what a step can lead to: only a reset and a C_INIT whose lengths are right write the object. -/
theorem cipherObjectIsImmutable : Obligations.CipherObjectIsImmutable := by
  unfold Obligations.CipherObjectIsImmutable
  intro s t hstep
  cases step_leads hstep with
  | reset u hreset hvariant =>
    refine .inr (.inl ⟨hreset, rfl, rfl, rfl, rfl, fun idx => ?_⟩)
    rw [memRead_blockReset, hvariant]
  | command i t hrst hturn hdecode hrun =>
    obtain rfl := eq_complete_of_exec hrun
    by_cases hinit : ∃ klen nlen raw, i = .cInit klen nlen raw
    · obtain ⟨klen, nlen, raw, rfl⟩ := hinit
      unfold beforeCompletion
      split
      · exact .inr (.inr ⟨hrst, hturn, ⟨klen, nlen, raw, hdecode⟩, rfl, rfl, rfl, rfl, rfl⟩)
      · exact .inl (beforeRaise_sameCipherObject _ s)
    · have noInit : ∀ klen nlen raw, i ≠ .cInit klen nlen raw := fun klen nlen raw e => hinit ⟨klen, nlen, raw, e⟩
      exact .inl (beforeCompletion_of (P := SameCipherObject s) (effect_sameCipherObject s noInit)
        (beforeRaise_sameCipherObject i s))
  | illegal => exact .inl ⟨rfl, rfl, rfl⟩
  | quiet => exact .inl ⟨rfl, rfl, rfl⟩
  | write reg v hidle hsoft =>
    have kept := writeReg_keepsEngineState s hsoft
    exact .inl ⟨kept.ckey, kept.cnonce, kept.cctr0⟩

end Sys2Proof.Machine
end

section
/-!
PROOFS, the host's turns (spec/10_state.md R22, spec/20_memory.md R64, R67, spec/30_encoding.md R102, R104,
spec/70_reset_and_hazards.md R261, R271): one step of each host operation, while idle and while a command is in flight.
-/

namespace Sys2Proof.Machine

/-! ### Reads at the port -/

/-- The registers that stay readable while busy are those of the first five words (R67). -/
theorem readableBusy_regAt (idx : BitVec 8) : readableBusy (regAt idx) = true ↔ idx.toNat ≤ 4 := by
  have listed : readableBusy (regAt idx) = true ↔
      regAt idx = .id ∨ regAt idx = .version ∨ regAt idx = .cap ∨ regAt idx = .ctrl ∨ regAt idx = .status := by
    cases regAt idx <;> simp [readableBusy]
  rw [listed, regAt_eq_iff (reg := .id) rfl, regAt_eq_iff (reg := .version) rfl, regAt_eq_iff (reg := .cap) rfl,
    regAt_eq_iff (reg := .ctrl) rfl, regAt_eq_iff (reg := .status) rfl]
  simp only [idxOf]
  bv_omega

theorem hostRead_idle (idx : BitVec 8) {s : State} (hrst : s.rstN = true) (hidle : s.busy = false) :
    hostRead idx s = (memRead s idx, s) := by
  simp [hostRead, hrst, hidle]

theorem hostRead_readable {idx : BitVec 8} {s : State} (hrst : s.rstN = true) (hidx : idx.toNat ≤ 4) :
    hostRead idx s = (memRead s idx, s) := by
  simp [hostRead, hrst, (readableBusy_regAt idx).mpr hidx]

theorem hostRead_draw {idx : BitVec 8} {s : State} (hbusy : s.busy = true) (hidx : 4 < idx.toNat) :
    hostRead idx s = drawWord s := by
  have hreadable : readableBusy (regAt idx) = false := by
    rw [← Bool.not_eq_true, readableBusy_regAt]
    omega
  simp [hostRead, hbusy, hreadable]

/-- `STATUS` is readable at any time while `rst_n` = 1 (R67). -/
theorem hostRead_status {s : State} (hrst : s.rstN = true) : hostRead statusIdx s = (statusWord s, s) := by
  rw [hostRead_readable hrst (by decide), memRead, regAt_statusIdx]
  rfl

/-- Bit 0 of `STATUS` is `BUSY` (R30). -/
theorem statusWord_busy (s : State) : (statusWord s).getLsbD 0 = s.busy := by
  simp only [statusWord, BitVec.getLsbD_append]
  simp

/-! ### Writes at the port -/

theorem writeReg_hostPos (reg : Reg) (v : Word) (s : State) : (writeReg reg v s).hostPos = s.hostPos := by
  cases reg with
  | ctrl => simp only [writeReg]; split <;> rfl
  | _ => rfl

theorem hostWrite_hostPos (idx : BitVec 8) (v : Word) {s : State} (hrst : s.rstN = true) :
    (hostWrite idx v s).hostPos = s.hostPos := by
  rcases hostWrite_cases idx v hrst with ⟨-, hwrite⟩ | ⟨-, -, hwrite⟩ | ⟨-, -, hwrite⟩ <;> rw [hwrite]
  · rfl
  · exact writeReg_hostPos _ v s

theorem isSoftReset_regAt (idx : BitVec 8) (v : Word) :
    isSoftReset (regAt idx) v = true ↔ idx = ctrlIdx ∧ v.getLsbD 1 = true := by
  rw [isSoftReset_iff, regAt_eq_iff (off := 0x00C) rfl]
  rfl

theorem hostWrite_softReset {idx : BitVec 8} {v : Word} {s : State} (hrst : s.rstN = true)
    (hsoft : idx = ctrlIdx ∧ v.getLsbD 1 = true) : hostWrite idx v s = blockReset s := by
  have soft := (isSoftReset_regAt idx v).mpr hsoft
  rcases hostWrite_cases idx v hrst with ⟨-, hwrite⟩ | ⟨hnot, -⟩ | ⟨hnot, -⟩
  · exact hwrite
  all_goals simp [soft] at hnot

theorem hostWrite_dropped {idx : BitVec 8} {v : Word} {s : State} (hrst : s.rstN = true) (hbusy : s.busy = true)
    (hsoft : ¬ (idx = ctrlIdx ∧ v.getLsbD 1 = true)) : hostWrite idx v s = { s with wdrop := true } := by
  rw [← isSoftReset_regAt] at hsoft
  rw [hostWrite_busy idx v hrst hbusy, writeBusy, if_neg hsoft]

/-! ### What each host operation does with `rst_n` = 1 -/

/-- A read that leaves the state alone is recorded, whatever value it returns (R64). -/
theorem hostOp_rd_of_value {idx : BitVec 8} {s : State} {w : Word} (hread : hostRead idx s = (w, s)) :
    hostOp (.rd idx) s = { s with readLog := w :: s.readLog, hostPos := s.hostPos + 1 } := by
  simp only [hostOp, hread]
  rfl

/-- A read of any other register while busy records a draw (R67). -/
theorem hostOp_rd_draw {idx : BitVec 8} {s : State} (hbusy : s.busy = true) (hidx : 4 < idx.toNat) :
    hostOp (.rd idx) s =
      { s with
        readLog := Config.freeWord s.draws :: s.readLog, draws := s.draws + 1, hostPos := s.hostPos + 1 } := by
  simp only [hostOp, hostRead_draw hbusy hidx]
  rfl

theorem hostOp_wr (idx : BitVec 8) (v : Word) {s : State} (hrst : s.rstN = true) :
    hostOp (.wr idx v) s = { hostWrite idx v s with hostPos := s.hostPos + 1 } := by
  simp only [hostOp, advance, hostWrite_hostPos idx v hrst]

theorem hostOp_wr_dropped {idx : BitVec 8} {v : Word} {s : State} (hrst : s.rstN = true) (hbusy : s.busy = true)
    (hsoft : ¬ (idx = ctrlIdx ∧ v.getLsbD 1 = true)) :
    hostOp (.wr idx v) s = { s with wdrop := true, hostPos := s.hostPos + 1 } := by
  rw [hostOp_wr idx v hrst, hostWrite_dropped hrst hbusy hsoft]

theorem hostOp_wr_softReset {idx : BitVec 8} {v : Word} {s : State} (hrst : s.rstN = true)
    (hsoft : idx = ctrlIdx ∧ v.getLsbD 1 = true) :
    hostOp (.wr idx v) s = { blockReset s with hostPos := s.hostPos + 1 } := by
  rw [hostOp_wr idx v hrst, hostWrite_softReset hrst hsoft]

/-- `wait` leaves its loop when bit 0 of the value read is 0 (R104). -/
theorem hostOp_wait_idle {s : State} (hrst : s.rstN = true) (hidle : s.busy = false) :
    hostOp .wait s = { s with readLog := statusWord s :: s.readLog, hostPos := s.hostPos + 1 } := by
  simp only [hostOp, hostRead_status hrst, statusWord_busy]
  rw [if_neg (by simp [hidle])]
  rfl

/-- `wait` stays in its loop while bit 0 of the value read is 1 (R104). -/
theorem hostOp_wait_busy {s : State} (hrst : s.rstN = true) (hbusy : s.busy = true) :
    hostOp .wait s = { s with readLog := statusWord s :: s.readLog } := by
  simp only [hostOp, hostRead_status hrst, statusWord_busy]
  rw [if_pos hbusy]
  rfl

/-- Waiting for `irq` moves the host on exactly when `irq` = 1 (R76). -/
theorem hostOp_waitIrq (s : State) :
    hostOp .waitIrq s = { s with hostPos := if irq s then s.hostPos + 1 else s.hostPos } := by
  simp only [hostOp]
  cases irq s <;> rfl

/-- Driving the pin to the 1 it has changes nothing of the block (R261; log 6). -/
theorem hostOp_rstN_high {s : State} (hrst : s.rstN = true) :
    hostOp (.rstN true) s = { s with hostPos := s.hostPos + 1 } := by
  rcases driveResetPin_cases true s with ⟨-, -, hpin⟩ | ⟨hlow, -⟩
  · simp only [hostOp, hpin]
    rfl
  · simp [hrst] at hlow

/-! ### A step that is the host's turn -/

/-- While idle the step is the host's operation (R21). -/
theorem step_host_idle {s : State} {op : HostOp} (hidle : s.busy = false) (hat : HostAt s op) :
    step s = .next (hostOp op s) := by
  obtain ⟨hrst, hop⟩ := hat
  have noEngine : engineTurn s = false := by simp [engineTurn, hidle]
  simp only [step, turn, hrst, noEngine, countTurn_idle hidle, hostTurn, nextOp, hop]
  rfl

/-- While a command is in flight and host turns remain, the step is the host's operation, and one turn fewer remains
(R239; log 4). -/
theorem step_host_busy {s : State} {op : HostOp} (hbusy : s.busy = true) (hdelay : s.delay ≠ 0) (hat : HostAt s op) :
    step s = .next (hostOp op { s with delay := s.delay - 1 }) := by
  obtain ⟨hrst, hop⟩ := hat
  have noEngine : engineTurn s = false := by simp [engineTurn, nextOp, hop, hdelay]
  have counted : countTurn s = { s with delay := s.delay - 1 } := by simp [countTurn, hbusy]
  simp only [step, turn, hrst, noEngine, counted, hostTurn, nextOp, hop]
  rfl

/-- Settles O27, by the step of a host's turn and what each operation does. -/
theorem hostTurns : Obligations.HostTurns := by
  unfold Obligations.HostTurns
  constructor
  · intro s hidle
    refine ⟨fun idx hat => ?rd, fun idx v hat => ?wr, fun hat => ?wait, fun hat => ?waitIrq, fun hat => ?rstN⟩ <;>
      refine (step_host_idle hidle hat).trans (congrArg Host.Outcome.next ?_)
    case rd => exact hostOp_rd_of_value (hostRead_idle idx hat.1 hidle)
    case wr => exact hostOp_wr idx v hat.1
    case wait => exact hostOp_wait_idle hat.1 hidle
    case waitIrq => exact hostOp_waitIrq s
    case rstN => exact hostOp_rstN_high hat.1
  · intro s hbusy hdelay
    refine ⟨fun idx hat hidx => ?rd, fun idx hat hidx => ?draw, fun idx v hat hsoft => ?dropped,
      fun v hat hbit => ?softReset, fun hat => ?wait, fun hat => ?waitIrq, fun hat => ?rstN⟩ <;>
      refine (step_host_busy hbusy hdelay hat).trans (congrArg Host.Outcome.next ?_)
    case rd => exact hostOp_rd_of_value (hostRead_readable hat.1 hidx)
    case draw => exact hostOp_rd_draw hbusy hidx
    case dropped => exact hostOp_wr_dropped hat.1 hbusy hsoft
    case softReset =>
      rw [hostWrite_softReset hat.1 ⟨rfl, hbit⟩]
      exact hostOp_wr_softReset hat.1 ⟨rfl, hbit⟩
    case wait => exact hostOp_wait_busy hat.1 hbusy
    case waitIrq => exact hostOp_waitIrq _
    case rstN => exact hostOp_rstN_high hat.1

end Sys2Proof.Machine
end

section
/-!
PROOFS, the port and the command in flight (spec/20_memory.md R64, R67, R71, R74, R75, spec/70_reset_and_hazards.md
R271): every step answers, reads change nothing, and a command runs on the state of its acceptance.
-/

namespace Sys2Proof.Machine

/-! ### Every step answers -/

/-- Settles O8, by what one transition can be: each of the four answers a next state of the same variant. -/
theorem everyStepAnswersNext : Obligations.EveryStepAnswersNext := by
  unfold Obligations.EveryStepAnswersNext
  intro s
  rcases turn_cases (s := s) rfl with ⟨-, e⟩ | ⟨-, -, i, -, e⟩ | ⟨-, -, -, e⟩ | ⟨-, -, e⟩
  · exact ⟨blockReset (hostTurn s), e, hostTurn_variant s⟩
  · obtain ⟨code, t, hrun, completes⟩ := exec_completes i s
    exact ⟨complete code t, e.trans hrun, completes.variant⟩
  · exact ⟨complete .opc s, e, rfl⟩
  · exact ⟨hostTurn (countTurn s), e, by rw [hostTurn_variant, countTurn_eq]⟩

/-! ### Reads -/

/-- Settles O17, by which registers stay readable while busy, and bit 0 of `STATUS`. -/
theorem readsHaveNoSideEffect : Obligations.ReadsHaveNoSideEffect := by
  unfold Obligations.ReadsHaveNoSideEffect
  intro s idx hrst
  refine ⟨hostRead_idle idx hrst, fun _ => hostRead_readable hrst, hostRead_draw, fun hbusy => ?_⟩
  rw [memRead, regAt_statusIdx, ← hbusy]
  exact statusWord_busy s

/-! ### The fields a host turn may change while a command is in flight -/

/-- `s` with the fields of `u` that a host turn may change while a command is in flight, short of a reset (R271). -/
def State.withHostOf (s u : State) : State := s.withHost u.wdrop u.hostPos u.readLog u.delay u.draws

/-- Of two changes of the host's fields the later one stands. -/
theorem State.withHostOf_withHostOf (s t u : State) : (s.withHostOf t).withHostOf u = s.withHostOf u := rfl

@[simp] theorem State.withHostOf_delay (s u : State) : (s.withHostOf u).delay = u.delay := rfl

/-- A command completes with the host's fields as it found them. -/
theorem Completes.withHostOf {s t : State} (h : Completes s t) : s.withHostOf t = s := by
  simp only [State.withHostOf, State.withHost, h.wdrop, h.hostPos, h.readLog, h.delay, h.draws]

/-! ### From acceptance to the engine's step -/

/-- At the engine's turn the step runs the accepted command (R233). -/
theorem step_engine {s : State} {i : Instr} (hrst : s.rstN = true) (hturn : engineTurn s = true)
    (hdecode : decode s.pending = .ok i) : step s = exec i s := by
  simp [step, turn, engineStep, hrst, hturn, hdecode]

/-- Without the engine's turn a command in flight has host turns left, and the host an operation (R239; log 4). -/
theorem hostTurns_left_of_busy {s : State} (hbusy : s.busy = true) (hturn : engineTurn s = false) :
    s.delay ≠ 0 ∧ ∃ op, nextOp s = some op := by
  simpa [engineTurn, hbusy, Option.isSome_iff_exists] using hturn

/-- While a command is in flight, a host turn that is no reset changes the host's fields only and uses up one of the
turns before the engine's (R271; log 4). -/
theorem step_host_busy_quiet {s : State} {op : HostOp} (hbusy : s.busy = true) (hdelay : s.delay ≠ 0)
    (hat : HostAt s op) (hop : isReset op = false) :
    ∃ t, step s = .next (s.withHostOf t) ∧ t.delay = s.delay - 1 := by
  have leads := hostOp_leads op (s := { s with delay := s.delay - 1 }) hat.1
  rw [step_host_busy hbusy hdelay hat]
  generalize hostOp op { s with delay := s.delay - 1 } = t at leads ⊢
  cases leads with
  | reset u hreset => simp [hop] at hreset
  | quiet wdrop hostPos readLog draws => exact ⟨s.withHost wdrop hostPos readLog (s.delay - 1) draws, rfl, rfl⟩
  | write reg v hidle => simp [hbusy] at hidle

/-- Within `bound` steps from `s` the command `i` has run on `s` itself, but for the fields of `withHostOf`. -/
def RunsWithin (i : Instr) (bound : Nat) (s : State) : Prop :=
  ∃ (k : Nat) (u : State), k ≤ bound ∧
    Host.Core.run Sys2Proof.core k s = .next u ∧ exec i (s.withHostOf u) = .next u

/-- At the engine's turn one step runs the command on the state it finds. -/
theorem runsWithin_of_engineTurn {s : State} {i : Instr} (n : Nat) (hrst : s.rstN = true)
    (hturn : engineTurn s = true) (hdecode : decode s.pending = .ok i) : RunsWithin i (n + 1) s := by
  obtain ⟨code, t, hrun, completes⟩ := exec_completes i s
  refine ⟨1, complete code t, by omega, core_run_succ 0 ((step_engine hrst hturn hdecode).trans hrun), ?_⟩
  rw [completes.withHostOf, hrun]

/-- A step that changes only the fields of `withHostOf` is not seen in the result: what the command runs with in those
fields is their value at the engine's turn. -/
theorem runsWithin_of_step {s t : State} {i : Instr} {n : Nat} (hstep : step s = .next (s.withHostOf t))
    (hruns : RunsWithin i n (s.withHostOf t)) : RunsWithin i (n + 1) s := by
  obtain ⟨k, u, hk, hrun, hexec⟩ := hruns
  rw [State.withHostOf_withHostOf] at hexec
  exact ⟨k + 1, u, by omega, (core_run_succ k hstep).trans hrun, hexec⟩

/-- The command in flight runs on the state of its acceptance, by induction on the host turns left before it. -/
theorem runsWithin_of_busy {s : State} {i : Instr} (hrst : s.rstN = true) (hbusy : s.busy = true)
    (hdecode : decode s.pending = .ok i) (hreset : noReset s.program) : RunsWithin i (s.delay + 1) s := by
  induction hn : s.delay generalizing s with
  | zero => exact runsWithin_of_engineTurn 0 hrst (by simp [engineTurn, hbusy, hn]) hdecode
  | succ n ih =>
    cases hturn : engineTurn s with
    | true => exact runsWithin_of_engineTurn (n + 1) hrst hturn hdecode
    | false =>
      obtain ⟨hdelay, op, hop⟩ := hostTurns_left_of_busy hbusy hturn
      have quiet : isReset op = false := hreset op (List.mem_of_getElem? hop)
      obtain ⟨t, hstep, hleft⟩ := step_host_busy_quiet hbusy hdelay ⟨hrst, hop⟩ quiet
      exact runsWithin_of_step hstep (ih (s := s.withHostOf t) hrst hbusy hdecode hreset (by simp [hleft, hn]))

/-- Settles O10: `withHostOf` gives the state of acceptance `WDROP`, the host's own fields and the model's own. -/
theorem commandRunsOnItsAcceptedInputs : Obligations.CommandRunsOnItsAcceptedInputs := by
  unfold Obligations.CommandRunsOnItsAcceptedInputs
  intro s i hrst hbusy hdecode hreset
  exact runsWithin_of_busy hrst hbusy hdecode hreset

end Sys2Proof.Machine
end

section
/-!
PROOFS, the opcode map. Which row of spec/30_encoding.md R97 a word selects, in terms of its opcode and its must-be-0
bits (R98), and that the decoder answers exactly by that row (R100).
-/

namespace Sys2Proof

/-- A row's opcode, bits [7:0] of its match value (R91). -/
def Row.opcode (r : Row) : Byte := r.pattern.extractLsb' 0 8

/-- The bit above a row's opcode and operand fields, those its mask does not test: from it on its format marks every
bit "must be 0" (R92 to R95). -/
def Row.operandEnd (r : Row) : Nat := 8 + (List.range 24).countP fun j => !r.mask.getLsbD (8 + j)

/-- The mask of a row whose must-be-0 bits begin at bit `k`. -/
def maskFrom (k : Nat) : Word := 0xFF#32 ||| (BitVec.allOnes 32 <<< k)

theorem getLsbD_maskFrom (k j : Nat) :
    (maskFrom k).getLsbD j = (decide (j < 8) || (decide (j < 32) && decide (k ≤ j))) := by
  have low : (0xFF#32).getLsbD j = decide (j < 8) := by
    have ones : (0xFF#32) = (BitVec.allOnes 8).setWidth 32 := rfl
    rw [ones, BitVec.getLsbD_setWidth, BitVec.getLsbD_allOnes]
    by_cases h : j < 8
    · simp [h, Nat.lt_trans h (by decide : 8 < 32)]
    · simp [h]
  rw [maskFrom, BitVec.getLsbD_or, low, BitVec.getLsbD_shiftLeft, BitVec.getLsbD_allOnes]
  by_cases h8 : j < 8 <;> by_cases h32 : j < 32 <;> by_cases hk : k ≤ j <;> simp [h8, h32, hk]; omega

/-- Every row tests the opcode and the bits from `operandEnd` on, and wants those 0 (R92 to R95, R97). -/
theorem opcodeMap_mask_pattern : ∀ r ∈ opcodeMap,
    r.mask = maskFrom r.operandEnd ∧ r.pattern = r.opcode.setWidth 32 ∧ 8 ≤ r.operandEnd := by
  decide

theorem opcodeMap_opcode_nodup : (opcodeMap.map Row.opcode).Nodup := by decide

/-- What a mask tests: the opcode, and the bits from `k` on. -/
theorem and_maskFrom_eq_iff (w : Word) (opc : Byte) {k : Nat} (hk : 8 ≤ k) :
    w &&& maskFrom k = opc.setWidth 32 ↔ w.setWidth 8 = opc ∧ w >>> k = 0#32 := by
  have bits (j : Nat) : (w &&& maskFrom k).getLsbD j = (w.getLsbD j && (decide (j < 8) || decide (k ≤ j))) := by
    by_cases h32 : j < 32
    · simp only [BitVec.getLsbD_and, getLsbD_maskFrom, h32, decide_true, Bool.true_and]
    · simp [BitVec.getLsbD_of_ge w j (by omega)]
  constructor
  · intro same
    have bit (j : Nat) : (w.getLsbD j && (decide (j < 8) || decide (k ≤ j))) = (opc.setWidth 32).getLsbD j := by
      rw [← bits, same]
    refine ⟨BitVec.eq_of_getLsbD_eq fun j hj => ?_, BitVec.eq_of_getLsbD_eq fun j _ => ?_⟩
    · have h32 : j < 32 := by omega
      simpa [hj, h32] using bit j
    · have above : ¬ k + j < 8 := by omega
      have past : opc.getLsbD (k + j) = false := BitVec.getLsbD_of_ge opc _ (by omega)
      simpa [above, past] using bit (k + j)
  · rintro ⟨low, high⟩
    refine BitVec.eq_of_getLsbD_eq fun j hj => ?_
    rw [bits]
    by_cases h8 : j < 8
    · simp [← low, h8, hj]
    · have top : k ≤ j → w.getLsbD j = false := fun h => by
        simpa [Nat.add_sub_cancel' h] using congrArg (·.getLsbD (j - k)) high
      have past : opc.getLsbD j = false := BitVec.getLsbD_of_ge opc j (by omega)
      by_cases h : k ≤ j
      · simp [top h, past]
      · simp [h, h8, past]

/-- A word selects a row exactly when it has the row's opcode and its must-be-0 bits are 0 (R97, R98). -/
theorem selects_iff {r : Row} (hr : r ∈ opcodeMap) (w : Word) :
    r.selects w = true ↔ w.toNat % 2 ^ 8 = r.opcode.toNat ∧ w.toNat / 2 ^ r.operandEnd = 0 := by
  obtain ⟨hmask, hpattern, hend⟩ := opcodeMap_mask_pattern r hr
  rw [Row.selects, beq_iff_eq, hmask, hpattern, and_maskFrom_eq_iff w r.opcode hend]
  simp [BitVec.toNat_eq, Nat.shiftRight_eq_div_pow]

/-- A word has the opcode of the row it selects (R91). -/
theorem opcode_of_selects {r : Row} (hr : r ∈ opcodeMap) {w : Word} (h : r.selects w = true) :
    w.setWidth 8 = r.opcode :=
  BitVec.eq_of_toNat_eq ((selects_iff hr w).mp h).1

/-- No two rows have one opcode, so a word selects one row at most (R97). -/
theorem selects_unique {r r' : Row} (hr : r ∈ opcodeMap) (hr' : r' ∈ opcodeMap) {w : Word} (h : r.selects w = true)
    (h' : r'.selects w = true) : r = r' :=
  List.inj_on_of_nodup_map opcodeMap_opcode_nodup hr hr'
    ((opcode_of_selects hr h).symm.trans (opcode_of_selects hr' h'))

/-- All the rows a word selects have its opcode (R91, R97). -/
theorem opcodes_of_selected (w : Word) : (opcodeMap.filter (·.selects w)).map Row.opcode =
    List.replicate (opcodeMap.filter (·.selects w)).length (w.setWidth 8) := by
  refine List.map_eq_replicate_iff.mpr fun r hr => ?_
  obtain ⟨hmap, hsel⟩ := List.mem_filter.mp hr
  exact (opcode_of_selects hmap hsel).symm

/-- Settles O3: the rows a word selects all have its opcode, and no opcode stands in the map twice. -/
theorem atMostOneRowMatches : Obligations.AtMostOneRowMatches := by
  unfold Obligations.AtMostOneRowMatches
  intro w
  have nodup := opcodeMap_opcode_nodup.sublist (List.filter_sublist (p := (Row.selects · w)) |>.map Row.opcode)
  rw [opcodes_of_selected] at nodup
  exact List.nodup_replicate.mp nodup

/-! ### The decoder -/

/-- R100's loop finds only a row of the table that the word selects. -/
theorem findRow_eq_some {w : Word} {rows : List Row} {r : Row} (h : findRow w rows = some r) :
    r ∈ rows ∧ r.selects w = true := by
  induction rows with
  | nil => simp [findRow] at h
  | cons r' rest ih =>
    cases hsel : r'.selects w with
    | true =>
      obtain rfl : r' = r := by simpa [findRow, hsel] using h
      exact ⟨List.mem_cons_self, hsel⟩
    | false =>
      obtain ⟨hr, hsel'⟩ := ih (by simpa [findRow, hsel] using h)
      exact ⟨List.mem_cons_of_mem r' hr, hsel'⟩

/-- R100's loop finds a row when the table has one that the word selects. -/
theorem findRow_isSome {w : Word} {rows : List Row} {r : Row} (hr : r ∈ rows) (h : r.selects w = true) :
    ∃ r', findRow w rows = some r' := by
  induction rows with
  | nil => simp at hr
  | cons r' rest ih =>
    cases hsel : r'.selects w with
    | true => exact ⟨r', by simp [findRow, hsel]⟩
    | false =>
      have other : r ≠ r' := by rintro rfl; simp [h] at hsel
      simpa [findRow, hsel] using ih ((List.mem_cons.mp hr).resolve_left other)

/-- R100: a word decodes to what the row it selects gives. -/
theorem decode_of_selects {r : Row} (hr : r ∈ opcodeMap) {w : Word} (h : r.selects w = true) :
    decode w = .ok (r.build w) := by
  obtain ⟨r', found⟩ := findRow_isSome hr h
  obtain ⟨hr', h'⟩ := findRow_eq_some found
  rw [decode, found, selects_unique hr hr' h h']

/-- R100: only a word that selects a row decodes, and to what that row gives. -/
theorem decode_eq_ok {w : Word} {i : Instr} (h : decode w = .ok i) :
    ∃ r ∈ opcodeMap, r.selects w = true ∧ r.build w = i := by
  rw [decode] at h
  cases found : findRow w opcodeMap with
  | none => simp [found] at h
  | some r =>
    obtain ⟨hr, hsel⟩ := findRow_eq_some found
    rw [found] at h
    exact ⟨r, hr, hsel, Except.ok.inj h⟩

/-- A word decodes exactly when it has the opcode of a row and its must-be-0 bits are 0 (R98). -/
theorem exists_decode_iff (w : Word) : (∃ i, decode w = .ok i) ↔
    ∃ r ∈ opcodeMap, w.toNat % 2 ^ 8 = r.opcode.toNat ∧ w.toNat / 2 ^ r.operandEnd = 0 := by
  constructor
  · rintro ⟨i, h⟩
    obtain ⟨r, hr, hsel, -⟩ := decode_eq_ok h
    exact ⟨r, hr, (selects_iff hr w).mp hsel⟩
  · rintro ⟨r, hr, h⟩
    exact ⟨r.build w, decode_of_selects hr ((selects_iff hr w).mpr h)⟩

/-- Every row's opcode and the bit its must-be-0 bits begin at, as R97's table and R92 to R95 give them. -/
theorem opcodeMap_formats : opcodeMap.map (fun r => (r.opcode.toNat, r.operandEnd)) =
    [(0x00, 8), (0x01, 24), (0x02, 8), (0x03, 8), (0x04, 8), (0x05, 8), (0x06, 8), (0x10, 8), (0x20, 25), (0x21, 8),
     (0x22, 16), (0x30, 8), (0x31, 8), (0x40, 16), (0x41, 8), (0x42, 15), (0x43, 8), (0x44, 15)] := by
  decide

/-- A word decodes exactly when it is legal, format by format (R98). -/
theorem legalWord_iff_decode (w : Word) : Machine.legalWord w ↔ ∃ i, decode w = .ok i := by
  have rows : (∃ i, decode w = .ok i) ↔ ∃ p ∈ opcodeMap.map (fun r => (r.opcode.toNat, r.operandEnd)),
      w.toNat % 2 ^ 8 = p.1 ∧ w.toNat / 2 ^ p.2 = 0 := by
    simp only [exists_decode_iff, List.mem_map, exists_exists_and_eq_and]
  rw [rows, opcodeMap_formats]
  simp only [List.exists_mem_cons_iff]
  simp only [Machine.legalWord, List.mem_cons, List.not_mem_nil, or_false, false_and, exists_false]
  grind

end Sys2Proof
end

section
/-!
PROOFS, illegal words. The engine's step on a word that is not legal (spec/30_encoding.md R98, spec/60_exceptions.md
R234), and the step of the machine at the engine's turn (R233, R239).
-/

namespace Sys2Proof.Machine

/-- An illegal word does not decode (R98). -/
theorem decode_error_of_not_legalWord {w : Word} (h : ¬ legalWord w) : ∃ e, decode w = .error e := by
  cases hdecode : decode w with
  | error e => exact ⟨e, rfl⟩
  | ok i => exact absurd ((legalWord_iff_decode w).mpr ⟨i, hdecode⟩) h

/-- The engine completes an illegal word with `E_OPC` and changes nothing else (R234). -/
theorem engineStep_illegal {s : State} (h : ¬ legalWord s.pending) :
    engineStep s = .next { s with busy := false, done := true, err := true, errcode := .opc } := by
  obtain ⟨e, hdecode⟩ := decode_error_of_not_legalWord h
  rw [engineStep, hdecode]
  exact raiseError_eq .opc s (by decide)

/-- Settles O4, by the rows' opcodes and must-be-0 bits. -/
theorem illegalWordsCompleteWithEOpc : Obligations.IllegalWordsCompleteWithEOpc := by
  unfold Obligations.IllegalWordsCompleteWithEOpc
  intro s
  exact ⟨legalWord_iff_decode s.pending, engineStep_illegal⟩

/-- At the engine's turn the step is the engine's (R239). -/
theorem step_engineStep {s : State} (hrst : s.rstN = true) (hturn : engineTurn s = true) : step s = engineStep s := by
  simp [step, turn, hrst, hturn]

/-- Settles O7: at the engine's turn the step is the engine's, which runs the command or completes the illegal word. -/
theorem stepRunsTheDecodedCommand : Obligations.StepRunsTheDecodedCommand := by
  unfold Obligations.StepRunsTheDecodedCommand
  intro s hrst hbusy hnext
  have hturn : engineTurn s = true := by simpa [engineTurn, nextOp, hbusy] using hnext
  refine ⟨fun i hdecode => step_engine hrst hturn hdecode, fun illegal => ?_⟩
  rw [step_engineStep hrst hturn, engineStep_illegal illegal]

end Sys2Proof.Machine
end

section
/-!
PROOFS, the round trip. The word `enc(X)` as its opcode and operand fields, and that decoding and encoding undo each
other (spec/30_encoding.md R97, R100, R103).
-/

namespace Sys2Proof

/-! ### The encoder -/

/-- The operand fields of a command's word (R92 to R95), as the integer of the bits above the opcode. -/
def operandBits : Instr → Nat
  | .qr a b c d => a + 2 ^ 4 * b + 2 ^ 8 * c + 2 ^ 12 * d
  | .cInit klen nlen raw => klen % 2 ^ 8 + 2 ^ 8 * (nlen % 2 ^ 8) + 2 ^ 16 * raw.toNat
  | .cXor len z => len % 2 ^ 7 + 2 ^ 7 * z.toNat
  | .pInit klen => klen % 2 ^ 8
  | .pBlock len => len % 2 ^ 7
  | .tagcmp len => len % 2 ^ 7
  | _ => 0

/-- `enc(X)` is the opcode with the operand fields above it (R97, R103). -/
theorem toNat_encode (i : Instr) : (encode i).toNat = (Laws.rowMatch i).toNat + 2 ^ 8 * operandBits i := by
  cases i <;>
    simp only [encode, encN, operandBits, Laws.rowMatch, Machine.toNat_append, BitVec.toNat_ofNat, BitVec.toNat_ofBool,
      BitVec.toNat_ofFin] <;>
    omega

theorem fieldNat_eq (w : Word) (lo width : Nat) : fieldNat w lo width = w.toNat / 2 ^ lo % 2 ^ width := by
  simp [fieldNat, BitVec.extractLsb'_toNat, Nat.shiftRight_eq_div_pow]

theorem fieldIndex_val (w : Word) (lo : Nat) : (fieldIndex w lo).val = w.toNat / 2 ^ lo % 2 ^ 4 := by
  simp [fieldIndex, Nat.shiftRight_eq_div_pow]

theorem fieldBit_toNat (w : Word) (i : Nat) : (fieldBit w i).toNat = w.toNat / 2 ^ i % 2 := by
  rw [fieldBit, BitVec.getLsbD, Nat.toNat_testBit]

theorem fieldBit_eq_iff (w : Word) (i : Nat) (b : Bool) : fieldBit w i = b ↔ w.toNat / 2 ^ i % 2 = b.toNat := by
  rw [← fieldBit_toNat]
  cases fieldBit w i <;> cases b <;> decide

/-! ### A command's row -/

/-- A command's place in the opcode map (R97). -/
def rowIndex : Instr → Fin 18
  | .nop => 0
  | .qr _ _ _ _ => 1
  | .colround => 2
  | .diaground => 3
  | .doubleround => 4
  | .perm => 5
  | .permff => 6
  | .hchacha => 7
  | .cInit _ _ _ => 8
  | .cStart => 9
  | .cXor _ _ => 10
  | .fadd => 11
  | .fmul => 12
  | .pInit _ => 13
  | .pStart => 14
  | .pBlock _ => 15
  | .pFinal => 16
  | .tagcmp _ => 17

/-- A command's row of the opcode map (R97). -/
def rowOf (i : Instr) : Row := opcodeMap[(rowIndex i).val]'(rowIndex i).isLt

theorem rowOf_mem (i : Instr) : rowOf i ∈ opcodeMap := List.getElem_mem _

theorem rowOf_mask (i : Instr) : (rowOf i).mask = Laws.rowMask i := by cases i <;> rfl

theorem rowOf_pattern (i : Instr) : (rowOf i).pattern = Laws.rowMatch i := by cases i <;> rfl

/-- The bit a command's must-be-0 bits begin at (R92 to R95). -/
def operandEnd : Instr → Nat
  | .qr _ _ _ _ => 24
  | .cInit _ _ _ => 25
  | .cXor _ _ => 16
  | .pInit _ => 16
  | .pBlock _ => 15
  | .tagcmp _ => 15
  | _ => 8

theorem rowOf_operandEnd (i : Instr) : (rowOf i).operandEnd = operandEnd i := by
  rw [Row.operandEnd, rowOf_mask]
  cases i <;> simp only [Laws.rowMask, operandEnd] <;> decide

@[simp] theorem rowOf_qr_build (a b c d : Fin 16) (w : Word) : (rowOf (.qr a b c d)).build w =
    .qr (fieldIndex w 8) (fieldIndex w 12) (fieldIndex w 16) (fieldIndex w 20) := rfl

@[simp] theorem rowOf_cInit_build (klen nlen : Nat) (raw : Bool) (w : Word) :
    (rowOf (.cInit klen nlen raw)).build w = .cInit (fieldNat w 8 8) (fieldNat w 16 8) (fieldBit w 24) := rfl

@[simp] theorem rowOf_cXor_build (len : Nat) (z : Bool) (w : Word) :
    (rowOf (.cXor len z)).build w = .cXor (fieldNat w 8 7) (fieldBit w 15) := rfl

@[simp] theorem rowOf_pInit_build (klen : Nat) (w : Word) :
    (rowOf (.pInit klen)).build w = .pInit (fieldNat w 8 8) := rfl

@[simp] theorem rowOf_pBlock_build (len : Nat) (w : Word) :
    (rowOf (.pBlock len)).build w = .pBlock (fieldNat w 8 7) := rfl

@[simp] theorem rowOf_tagcmp_build (len : Nat) (w : Word) :
    (rowOf (.tagcmp len)).build w = .tagcmp (fieldNat w 8 7) := rfl

/-- Every command's word matches its row (R97, R103). -/
theorem encode_matches_row (i : Instr) : Laws.EncodeMatchesRow.Statement i := by
  cases i with
  | nop => exact Laws.EncodeMatchesRow.nop
  | qr a b c d => exact Laws.EncodeMatchesRow.qr a b c d
  | colround => exact Laws.EncodeMatchesRow.colround
  | diaground => exact Laws.EncodeMatchesRow.diaground
  | doubleround => exact Laws.EncodeMatchesRow.doubleround
  | perm => exact Laws.EncodeMatchesRow.perm
  | permff => exact Laws.EncodeMatchesRow.permff
  | hchacha => exact Laws.EncodeMatchesRow.hchacha
  | cInit klen nlen raw => exact Laws.EncodeMatchesRow.cInit klen nlen raw
  | cStart => exact Laws.EncodeMatchesRow.cStart
  | cXor len z => exact Laws.EncodeMatchesRow.cXor len z
  | fadd => exact Laws.EncodeMatchesRow.fadd
  | fmul => exact Laws.EncodeMatchesRow.fmul
  | pInit klen => exact Laws.EncodeMatchesRow.pInit klen
  | pStart => exact Laws.EncodeMatchesRow.pStart
  | pBlock len => exact Laws.EncodeMatchesRow.pBlock len
  | pFinal => exact Laws.EncodeMatchesRow.pFinal
  | tagcmp len => exact Laws.EncodeMatchesRow.tagcmp len

theorem rowOf_selects_encode (i : Instr) : (rowOf i).selects (encode i) = true := by
  rw [Row.selects, rowOf_mask, rowOf_pattern]
  exact beq_iff_eq.mpr (encode_matches_row i)

/-! ### The round trip -/

theorem sizeFits_iff (n : Nat) : sizeFits n = true ↔ n < 2 ^ 8 := by simp [sizeFits]; omega

theorem lenFits_iff (n : Nat) : lenFits n = true ↔ n < 2 ^ 7 := by simp [lenFits]; omega

/-- The fields of a command's word are its operands, when they fit (R92 to R96). -/
theorem rowOf_build_encode {i : Instr} (h : i.wellFormed = true) : (rowOf i).build (encode i) = i := by
  have value := toNat_encode i
  cases i with
  | qr a b c d =>
    simp only [rowOf_qr_build, Instr.qr.injEq, Fin.ext_iff, fieldIndex_val, value, operandBits, Laws.rowMatch,
      BitVec.toNat_ofNat]
    omega
  | cInit klen nlen raw =>
    have flag := raw.toNat_lt
    simp only [Instr.wellFormed, Bool.and_eq_true, sizeFits_iff] at h
    simp only [rowOf_cInit_build, Instr.cInit.injEq, fieldNat_eq, fieldBit_eq_iff, value, operandBits,
      Laws.rowMatch, BitVec.toNat_ofNat]
    omega
  | cXor len z =>
    have flag := z.toNat_lt
    simp only [Instr.wellFormed, lenFits_iff] at h
    simp only [rowOf_cXor_build, Instr.cXor.injEq, fieldNat_eq, fieldBit_eq_iff, value, operandBits,
      Laws.rowMatch, BitVec.toNat_ofNat]
    omega
  | pInit klen =>
    simp only [Instr.wellFormed, sizeFits_iff] at h
    simp only [rowOf_pInit_build, Instr.pInit.injEq, fieldNat_eq, value, operandBits, Laws.rowMatch,
      BitVec.toNat_ofNat]
    omega
  | pBlock len =>
    simp only [Instr.wellFormed, lenFits_iff] at h
    simp only [rowOf_pBlock_build, Instr.pBlock.injEq, fieldNat_eq, value, operandBits, Laws.rowMatch,
      BitVec.toNat_ofNat]
    omega
  | tagcmp len =>
    simp only [Instr.wellFormed, lenFits_iff] at h
    simp only [rowOf_tagcmp_build, Instr.tagcmp.injEq, fieldNat_eq, value, operandBits, Laws.rowMatch,
      BitVec.toNat_ofNat]
    omega
  | _ => rfl

/-- Settles O1: the word of a command selects its row, and that row's fields are its operands. -/
theorem decodeOfEncode : Obligations.DecodeOfEncode := by
  unfold Obligations.DecodeOfEncode
  intro i h
  rw [decode_of_selects (rowOf_mem i) (rowOf_selects_encode i), rowOf_build_encode h]

/-- A row gives commands of that row only (R97). -/
theorem rowOf_build : ∀ r ∈ opcodeMap, ∀ w, rowOf (r.build w) = r := by
  simp only [opcodeMap, List.forall_mem_cons, List.not_mem_nil, false_imp_iff, implies_true, and_true]
  and_intros <;> exact fun _ => rfl

/-- What a row's fields give fits them (R94 to R96). -/
theorem rowOf_build_wellFormed (i : Instr) (w : Word) : ((rowOf i).build w).wellFormed = true := by
  have size (lo : Nat) : sizeFits (fieldNat w lo 8) = true := (sizeFits_iff _).mpr (BitVec.isLt _)
  have length (lo : Nat) : lenFits (fieldNat w lo 7) = true := (lenFits_iff _).mpr (BitVec.isLt _)
  cases i with
  | cInit klen nlen raw => exact Bool.and_eq_true_iff.mpr ⟨size 8, size 16⟩
  | cXor len z => exact length 8
  | pInit klen => exact size 8
  | pBlock len => exact length 8
  | tagcmp len => exact length 8
  | _ => rfl

/-- The operand fields of a row together are all the bits between its opcode and its must-be-0 bits (R92 to R95). -/
theorem operandBits_rowOf_build (i : Instr) {w : Word} (h : w.toNat / 2 ^ (rowOf i).operandEnd = 0) :
    operandBits ((rowOf i).build w) = w.toNat / 2 ^ 8 := by
  rw [rowOf_operandEnd] at h
  cases i with
  | qr a b c d =>
    simp only [rowOf_qr_build, operandBits, operandEnd, fieldIndex_val] at h ⊢
    omega
  | cInit klen nlen raw =>
    simp only [rowOf_cInit_build, operandBits, operandEnd, fieldNat_eq, fieldBit_toNat] at h ⊢
    omega
  | cXor len z =>
    simp only [rowOf_cXor_build, operandBits, operandEnd, fieldNat_eq, fieldBit_toNat] at h ⊢
    omega
  | pInit klen =>
    simp only [rowOf_pInit_build, operandBits, operandEnd, fieldNat_eq] at h ⊢
    omega
  | pBlock len =>
    simp only [rowOf_pBlock_build, operandBits, operandEnd, fieldNat_eq] at h ⊢
    omega
  | tagcmp len =>
    simp only [rowOf_tagcmp_build, operandBits, operandEnd, fieldNat_eq] at h ⊢
    omega
  | _ => exact h.symm

/-- The opcode and the operand fields are the whole of a word that selects a row (R97). -/
theorem encode_build_of_selects {r : Row} (hr : r ∈ opcodeMap) {w : Word} (h : r.selects w = true) :
    encode (r.build w) = w := by
  obtain ⟨hopc, hend⟩ := (selects_iff hr w).mp h
  obtain ⟨-, hpattern, -⟩ := opcodeMap_mask_pattern r hr
  have row : rowOf (r.build w) = r := rowOf_build r hr w
  have opcode : (Laws.rowMatch (r.build w)).toNat = w.toNat % 2 ^ 8 := by
    rw [← rowOf_pattern, row, hpattern, hopc, BitVec.toNat_setWidth_of_le (by decide)]
  have operands : operandBits (r.build w) = w.toNat / 2 ^ 8 := by
    have bits := operandBits_rowOf_build (r.build w) (w := w)
    rw [row] at bits
    exact bits hend
  apply BitVec.eq_of_toNat_eq
  rw [toNat_encode, opcode, operands, Nat.mod_add_div]

/-- Settles O2: a word that decodes selects a row, and is that row's opcode and fields. -/
theorem encodeOfDecode : Obligations.EncodeOfDecode := by
  unfold Obligations.EncodeOfDecode
  intro w i h
  obtain ⟨r, hr, hsel, rfl⟩ := decode_eq_ok h
  refine ⟨?_, encode_build_of_selects hr hsel⟩
  have fits := rowOf_build_wellFormed (r.build w) w
  rwa [rowOf_build r hr w] at fits

/-- Settles O5: each word is the encoding of its command (R103). -/
theorem patternWordsDecode : Obligations.PatternWordsDecode :=
  ⟨decodeOfEncode (.qr 2 7 8 13) rfl, decodeOfEncode .hchacha rfl, decodeOfEncode (.cInit 32 12 true) rfl,
    decodeOfEncode (.cXor 64 true) rfl, decodeOfEncode .fmul rfl, decodeOfEncode (.pBlock 16) rfl,
    decodeOfEncode (.tagcmp 15) rfl⟩

end Sys2Proof
end

section
/-!
PROOFS, a message's tag. What P_INIT, P_START, the P_BLOCKs of a message and P_FINAL leave in `TAG`, held to the
message-level reference (spec/45_auth.md R196 to R206, R209), and the verify sequence (R207, R210).
-/

namespace Sys2Proof.Machine

/-! ### Little-endian bytes -/

/-- Byte j of a multi-word integer register is byte j of its value (R13, R24). -/
theorem numByte_eq_ofNat {n : Nat} (x : BitVec n) (j : Nat) : numByte x j = BitVec.ofNat 8 (x.toNat / 2 ^ (8 * j)) := by
  apply BitVec.eq_of_toNat_eq
  rw [numByte, BitVec.extractLsb'_toNat, Nat.shiftRight_eq_div_pow, BitVec.toNat_ofNat]

/-- Byte k of a word is byte k of its value, also of one that the word holds modulo 2^32 (R13, R14). -/
theorem wordByte_ofNat (v : Nat) {k : Nat} (hk : k < 4) :
    wordByte (BitVec.ofNat 32 v) k = BitVec.ofNat 8 (v / 2 ^ (8 * k)) := by
  apply BitVec.eq_of_toNat_eq
  rw [wordByte, BitVec.extractLsb'_toNat, Nat.shiftRight_eq_div_pow, BitVec.toNat_ofNat, BitVec.toNat_ofNat]
  interval_cases k <;> omega

theorem leBytes_eq_map (n v : Nat) : leBytes n v = (List.range n).map fun j => BitVec.ofNat 8 (v / 2 ^ (8 * j)) := by
  induction n generalizing v with
  | zero => rfl
  | succ n ih =>
    have next (j : Nat) : v / 256 / 2 ^ (8 * j) = v / 2 ^ (8 * (j + 1)) := by
      rw [Nat.div_div_eq_div_mul, Nat.mul_succ, Nat.pow_add, Nat.mul_comm]
    simp [leBytes, ih, List.range_succ_eq_map, next]

/-- The bytes of a multi-word integer register are those of its value (R13, R24). -/
theorem numBytes_eq_leBytes {n : Nat} (x : BitVec n) (len : Nat) : numBytes x len = leBytes len x.toNat := by
  rw [numBytes, leBytes_eq_map]
  exact List.map_congr_left fun j _ => numByte_eq_ofNat x j

/-- Byte k of the LE value of a byte sequence is the sequence's byte k (R13). -/
theorem ofNat_leValue_div (bs : List Byte) {k : Nat} (hk : k < bs.length) :
    BitVec.ofNat 8 (leValue bs / 2 ^ (8 * k)) = bs[k] := by
  have bytes : (leBytes bs.length (leValue bs))[k]? = bs[k]? := by rw [leBytes_leValue]
  simpa [leBytes_eq_map, hk] using bytes

/-- The bytes of a staged block are the block's (R14, R106). -/
theorem byteOf_stage (b : List Byte) {j : Nat} (hj : j < b.length) (h64 : j < 64) : byteOf (stage b) j = b[j] := by
  have word : j / 4 < 16 := by omega
  have inWord : j % 4 < ((b.drop (4 * (j / 4))).take 4).length := by simp; omega
  have place : 4 * (j / 4) + j % 4 = j := Nat.div_add_mod j 4
  rw [byteOf, stage, Vector.getElem?_ofFn, dif_pos word, Option.getD_some, wordByte_ofNat _ (by omega),
    ofNat_leValue_div _ inWord]
  simp [place]

theorem bytesFrom_stage {b : List Byte} (h : b.length ≤ 64) : bytesFrom (stage b) 0 b.length = b := by
  apply List.ext_getElem (by simp)
  intro j _ hj
  simp [bytesFrom, byteOf_stage b hj (by omega)]

theorem bytesFrom_take {n : Nat} (A : Vector Word n) (start len k : Nat) :
    (bytesFrom A start len).take k = bytesFrom A start (min k len) := by
  simp [bytesFrom, ← List.map_take, List.take_range]

theorem bytesFrom_drop {n : Nat} (A : Vector Word n) (start len k : Nat) :
    (bytesFrom A start len).drop k = bytesFrom A (start + k) (len - k) := by
  apply List.ext_getElem (by simp)
  intro j _ _
  simp [bytesFrom, Nat.add_assoc]

/-! ### A message's blocks -/

/-- Block `q` of a message, 16 bytes but for the last one (R206). -/
def messageBlock (m : List Byte) (q : Nat) : List Byte := (m.drop (16 * q)).take 16

/-- The blocks of a message that have all 16 bytes (R206). -/
def fullBlocks (m : List Byte) : List (List Byte) := (List.range (m.length / 16)).map (messageBlock m)

/-- The bytes of a message after its full blocks (R206). -/
def lastBytes (m : List Byte) : List Byte := m.drop (16 * (m.length / 16))

@[simp] theorem lastBytes_length (m : List Byte) : (lastBytes m).length = m.length % 16 := by
  simp [lastBytes]; omega

theorem length_of_mem_fullBlocks {m b : List Byte} (h : b ∈ fullBlocks m) : b.length = 16 := by
  obtain ⟨q, hq, rfl⟩ := List.mem_map.mp h
  have := List.mem_range.mp hq
  simp [messageBlock]
  omega

theorem fullBlocks_of_short {m : List Byte} (h : m.length < 16) : fullBlocks m = [] := by
  simp [fullBlocks, Nat.div_eq_of_lt h]

theorem lastBytes_of_short {m : List Byte} (h : m.length < 16) : lastBytes m = m := by
  simp [lastBytes, Nat.div_eq_of_lt h]

theorem fullBlocks_of_long {m : List Byte} (h : 16 ≤ m.length) :
    fullBlocks m = m.take 16 :: fullBlocks (m.drop 16) := by
  have count : m.length / 16 = (m.drop 16).length / 16 + 1 := by simp; omega
  have shift (q : Nat) : messageBlock m (q + 1) = messageBlock (m.drop 16) q := by
    simp [messageBlock, Nat.mul_succ, Nat.add_comm]
  have first : messageBlock m 0 = m.take 16 := rfl
  simp [fullBlocks, count, List.range_succ_eq_map, shift, first]

theorem lastBytes_of_long {m : List Byte} (h : 16 ≤ m.length) : lastBytes m = lastBytes (m.drop 16) := by
  simp [lastBytes]
  omega

@[simp] theorem pieces_nil {α : Type} (size n : Nat) : pieces size n ([] : List α) = [] := by cases n <;> rfl

/-- The host's 16-byte pieces of a message are its full blocks and then, if bytes are left, those (R209). -/
theorem pieces_eq_blocks {n : Nat} {m : List Byte} (h : m.length ≤ n) :
    pieces 16 n m = fullBlocks m ++ if m.length % 16 = 0 then [] else [lastBytes m] := by
  induction n generalizing m with
  | zero =>
    obtain rfl : m = [] := by simpa using h
    rfl
  | succ n ih =>
    rcases Nat.eq_zero_or_pos m.length with hnil | hpos
    · obtain rfl : m = [] := by simpa using hnil
      rfl
    have first : pieces 16 (n + 1) m = m.take 16 :: pieces 16 n (m.drop 16) := by
      cases m with
      | nil => simp at hpos
      | cons x xs => rfl
    rw [first]
    rcases Nat.lt_or_ge m.length 16 with hshort | hlong
    · have bytesLeft : m.length % 16 ≠ 0 := by omega
      simp [fullBlocks_of_short hshort, lastBytes_of_short hshort, bytesLeft, List.take_of_length_le hshort.le,
        List.drop_of_length_le hshort.le]
    · have same : (m.drop 16).length % 16 = m.length % 16 := by simp; omega
      rw [ih (by simp; omega), same, fullBlocks_of_long hlong, lastBytes_of_long hlong, List.cons_append]

/-- The accumulator after a list of blocks, from a value `h` (R202, R203). -/
def foldBlocks (v : PolyVariant) (r h : Nat) (blocks : List (List Byte)) : Nat :=
  blocks.foldl (fun h b => fold r h (blockValue v b)) h

/-- The reference's accumulator after full blocks is theirs in order (R206). -/
theorem foldFull_eq_foldBlocks (v : PolyVariant) (r : Nat) (m : List Byte) (q : Nat) :
    foldFull v r m q = foldBlocks v r 0 ((List.range q).map (messageBlock m)) := by
  induction q with
  | zero => rfl
  | succ q ih => simp [foldFull, ih, List.range_succ, foldBlocks, messageBlock]

/-- The reference's accumulator of a message without a short block (R204, R206). -/
theorem foldMessage_of_full {v : PolyVariant} {r : Nat} {m : List Byte} (h : m.length % 16 = 0) :
    foldMessage v r m = match v with
      | .docLiteral => fold r (foldBlocks v r 0 (fullBlocks m)) (2 ^ 127)
      | .rfc8439 => foldBlocks v r 0 (fullBlocks m) := by
  cases v <;> simp [foldMessage, h, foldFull_eq_foldBlocks, fullBlocks]

/-- The reference's accumulator of a message that ends in a short block (R204, R206). -/
theorem foldMessage_of_short_block {v : PolyVariant} {r : Nat} {m : List Byte} (h : m.length % 16 ≠ 0) :
    foldMessage v r m = fold r (foldBlocks v r 0 (fullBlocks m)) (blockValue v (lastBytes m)) := by
  simp [foldMessage, Nat.pos_of_ne_zero h, foldFull_eq_foldBlocks, fullBlocks, lastBytes]

/-! ### The commands of a computation -/

/-- What a computation on an authenticator object leaves alone: the object, the supplied tag and the reported error. -/
structure SameAuthenticator (s t : State) : Prop where
  variant : t.variant = s.variant
  avalid : t.avalid = s.avalid
  r : t.r = s.r
  pad : t.pad = s.pad
  tagin : t.tagin = s.tagin
  errcode : t.errcode = s.errcode

theorem SameAuthenticator.refl (s : State) : SameAuthenticator s s := ⟨rfl, rfl, rfl, rfl, rfl, rfl⟩

theorem SameAuthenticator.trans {s t u : State} (first : SameAuthenticator s t) (second : SameAuthenticator t u) :
    SameAuthenticator s u where
  variant := second.variant.trans first.variant
  avalid := second.avalid.trans first.avalid
  r := second.r.trans first.r
  pad := second.pad.trans first.pad
  tagin := second.tagin.trans first.tagin
  errcode := second.errcode.trans first.errcode

/-- A command none of whose checks fails completes its whole effect (R233, R235). -/
theorem exec_of_checks {i : Instr} {s : State} (h : completionCode i s = .none) :
    exec i s = .next { effect i s with busy := false, done := true } := by
  rw [exec_eq_complete, beforeCompletion, h, if_pos rfl]
  exact finish_eq _

@[simp] theorem clamp_length (v : PolyVariant) (rb : List Byte) : (clamp v rb).length = rb.length := by simp [clamp]

/-- P_INIT with klen = 32 makes an object of the staged key (R197, R200). -/
theorem exec_pInit_32 (s : State) : ∃ t, exec (.pInit 32) s = .next t ∧ t.avalid = true ∧
    t.r.toNat = leValue (clamp s.variant (bytesFrom s.pkeyin 0 16)) ∧
    t.pad.toNat = leValue (bytesFrom s.pkeyin 16 16) ∧
    t.variant = s.variant ∧ t.tagin = s.tagin ∧ t.errcode = s.errcode := by
  refine ⟨_, exec_of_checks rfl, rfl, ?_, ?_, rfl, rfl, rfl⟩
  · have bound := leValue_lt (clamp s.variant (bytesFrom s.pkeyin 0 16))
    rw [clamp_length, bytesFrom_length] at bound
    exact Nat.mod_eq_of_lt bound
  · have bound := leValue_lt (bytesFrom s.pkeyin 16 16)
    rw [bytesFrom_length] at bound
    exact Nat.mod_eq_of_lt bound

/-- P_START on an object begins a computation (R201). -/
theorem exec_pStart_object {s : State} (object : s.avalid = true) : ∃ t, exec .pStart s = .next t ∧
    SameAuthenticator s t ∧ t.pphase = .active ∧ t.h = 0 := by
  have passed : completionCode .pStart s = .none := by simp [completionCode, checks, firstFailing, object]
  exact ⟨_, exec_of_checks passed, ⟨rfl, rfl, rfl, rfl, rfl, rfl⟩, rfl, rfl⟩

/-- P_BLOCK of a staged block of 1 to 16 bytes in phase `ACTIVE` folds it (R202, R203). -/
theorem exec_pBlock_staged {s : State} {b : List Byte} (object : s.avalid = true) (active : s.pphase = .active)
    (hpos : 0 < b.length) (h16 : b.length ≤ 16) : ∃ t,
      exec (.pBlock b.length) { s with din := stage b } = .next t ∧
      SameAuthenticator s t ∧ t.pphase = (if b.length < 16 then .tailed else .active) ∧
      t.h.toNat = fold s.r.toNat s.h.toNat (blockValue s.variant b) := by
  have passed : completionCode (.pBlock b.length) { s with din := stage b } = .none := by
    have size : ¬ (b.length = 0 ∨ 16 < b.length) := by omega
    simp only [completionCode, checks, firstFailing, object, active, size]
    rfl
  refine ⟨_, exec_of_checks passed, ⟨rfl, rfl, rfl, rfl, rfl, rfl⟩, ?_, ?_⟩
  · rw [← active]
    rfl
  · simp only [effect, bytesFrom_stage (b := b) (by omega)]
    exact residue_fits (fold_lt _ _ _)

/-- P_FINAL in phase `ACTIVE` or `TAILED` leaves the final accumulator plus the pad in `TAG` (R205). -/
theorem exec_pFinal_running {s : State} (object : s.avalid = true)
    (running : s.pphase = .active ∨ s.pphase = .tailed) : ∃ t,
      exec .pFinal s = .next t ∧ SameAuthenticator s t ∧ t.tvalid = true ∧
      t.tag.toNat = ((finalAccumulator s).toNat + s.pad.toNat) % 2 ^ 128 := by
  have passed : completionCode .pFinal s = .none := by
    rcases running with phase | phase <;> simp [completionCode, checks, firstFailing, object, phase]
  exact ⟨_, exec_of_checks passed, ⟨rfl, rfl, rfl, rfl, rfl, rfl⟩, rfl, rfl⟩

/-- Blocks folded one after another. -/
theorem foldPieces_append {first : List (List Byte)} {s t : State} (h : foldPieces first s = .next t)
    (rest : List (List Byte)) : foldPieces (first ++ rest) s = foldPieces rest t := by
  induction first generalizing s with
  | nil =>
    obtain rfl : s = t := Host.Outcome.next.inj h
    rfl
  | cons b first ih =>
    simp only [foldPieces, List.cons_append] at h ⊢
    cases hexec : exec (.pBlock b.length) { s with din := stage b } with
    | next u => exact ih (by simpa [hexec] using h)
    | fault f => simp [hexec] at h
    | refused r => simp [hexec] at h

/-- Full blocks, folded from phase `ACTIVE`, leave the phase and give the accumulator of the list (R203). -/
theorem foldPieces_full {blocks : List (List Byte)} (full : ∀ b ∈ blocks, b.length = 16) {s : State}
    (object : s.avalid = true) (active : s.pphase = .active) : ∃ t, foldPieces blocks s = .next t ∧
      SameAuthenticator s t ∧ t.pphase = .active ∧ t.h.toNat = foldBlocks s.variant s.r.toNat s.h.toNat blocks := by
  induction blocks generalizing s with
  | nil => exact ⟨s, rfl, .refl s, active, rfl⟩
  | cons b blocks ih =>
    obtain ⟨hb, others⟩ := List.forall_mem_cons.mp full
    obtain ⟨t, hexec, same, phase, folded⟩ := exec_pBlock_staged (b := b) object active (by omega) (by omega)
    rw [hb, if_neg (by decide)] at phase
    obtain ⟨u, hrest, same', phase', folded'⟩ := ih others (same.avalid.trans object) phase
    refine ⟨u, ?_, same.trans same', phase', ?_⟩
    · simp only [foldPieces, hexec, hrest]
    · rw [folded', folded, same.variant, same.r]
      rfl

/-- The blocks of a message, folded from an accumulator of 0, leave the reference's accumulator to P_FINAL: a short last
block is folded by its P_BLOCK, and DOC_LITERAL's extra block by P_FINAL exactly when there was no short one (R204). -/
theorem foldPieces_message {s : State} (m : List Byte) (object : s.avalid = true) (active : s.pphase = .active)
    (start : s.h = 0) : ∃ t, foldPieces (pieces 16 m.length m) s = .next t ∧ SameAuthenticator s t ∧
      (t.pphase = .active ∨ t.pphase = .tailed) ∧
      (finalAccumulator t).toNat = foldMessage s.variant s.r.toNat m := by
  obtain ⟨t, hfull, same, phase, folded⟩ :=
    foldPieces_full (fun _ => length_of_mem_fullBlocks (m := m)) object active
  rw [start, BitVec.ofNat_eq_ofNat, BitVec.toNat_zero] at folded
  rw [pieces_eq_blocks le_rfl, foldPieces_append hfull]
  by_cases hlast : m.length % 16 = 0
  · rw [if_pos hlast, foldMessage_of_full hlast]
    refine ⟨t, rfl, same, .inl phase, ?_⟩
    cases hv : s.variant with
    | rfc8439 => simp [finalAccumulator, same.variant, hv, folded]
    | docLiteral =>
      rw [finalAccumulator, if_pos ⟨same.variant.trans hv, phase⟩, residue_fits (fold_lt _ _ _), folded, same.r, hv]
  · rw [if_neg hlast, foldMessage_of_short_block hlast]
    have len : (lastBytes m).length < 16 := by simp; omega
    have nonempty : 0 < (lastBytes m).length := by simp; omega
    obtain ⟨u, hexec, same', phase', folded'⟩ := exec_pBlock_staged (same.avalid.trans object) phase nonempty len.le
    rw [if_pos len] at phase'
    refine ⟨u, ?_, same.trans same', .inr phase', ?_⟩
    · simp only [foldPieces, hexec]
    · rw [finalAccumulator, if_neg (by simp [phase']), folded', folded, same.variant, same.r]

/-- The commands of compute(message) leave the reference's tag in `TAG` (R206, R209). -/
theorem computeTag_message {s : State} (m : List Byte) (object : s.avalid = true) :
    ∃ t, computeTag (pieces 16 m.length m) s = .next t ∧ SameAuthenticator s t ∧ t.tvalid = true ∧
      t.tag.toNat = tagValue s.variant s.r.toNat s.pad.toNat m := by
  obtain ⟨t, hstart, same, active, start⟩ := exec_pStart_object object
  have object' := same.avalid.trans object
  obtain ⟨u, hblocks, same', running, folded⟩ := foldPieces_message m object' active start
  obtain ⟨w, hfinal, same'', valid, tag⟩ := exec_pFinal_running (same'.avalid.trans object') running
  refine ⟨w, ?_, same.trans (same'.trans same''), valid, ?_⟩
  · simp only [computeTag, hstart, hblocks, hfinal]
  · rw [tag, folded, tagValue, same'.pad, same.pad, same.variant, same.r]

/-- P_INIT on the staged key and compute(message) leave `tag(k, m)` in `TAG`, the supplied tag and the error report as
they were (R206, R209). -/
theorem tag_of_staged_key (s : State) (m : List Byte) : ∃ t u,
    exec (.pInit 32) s = .next t ∧ computeTag (pieces 16 m.length m) t = .next u ∧
    numBytes u.tag 16 = tagOf s.variant (bytesFrom s.pkeyin 0 32) m ∧ u.tvalid = true ∧ u.tagin = s.tagin ∧
    u.errcode = s.errcode := by
  obtain ⟨t, hinit, object, hr, hpad, hvariant, htagin, hcode⟩ := exec_pInit_32 s
  obtain ⟨u, hcompute, same, valid, tag⟩ := computeTag_message m object
  refine ⟨t, u, hinit, hcompute, ?_, valid, same.tagin.trans htagin, same.errcode.trans hcode⟩
  rw [numBytes_eq_leBytes, tag, tagOf, hr, hpad, hvariant, bytesFrom_drop, bytesFrom_take, bytesFrom_take]
  rfl

/-! ### The verify sequence -/

/-- TAGCMP of 16 bytes on a valid tag answers the comparison of the two registers' bytes (R207, R208). -/
theorem exec_tagcmp_16 {s : State} (valid : s.tvalid = true) : ∃ t, exec (.tagcmp 16) s = .next t ∧
    t.eq = ctEq (numBytes s.tag 16) (numBytes s.tagin 16) :=
  ⟨_, exec_of_checks (by simp [completionCode, checks, firstFailing, valid]), rfl⟩

/-- TAGCMP of any other length clears `EQ`, without error (R207). -/
theorem exec_tagcmp_other {len : Nat} (h : len ≠ 16) (s : State) :
    exec (.tagcmp len) s = .next { s with eq := false, busy := false, done := true } := by
  rw [exec_of_checks (by simp [completionCode, checks, firstFailing, h]), effect, if_neg h]

/-- Settles O51: for 16 bytes the computed tag is the reference's, and the host sends no other length as 16. -/
theorem verifyOfAMessage : Obligations.VerifyOfAMessage := by
  unfold Obligations.VerifyOfAMessage
  constructor
  · intro s m
    obtain ⟨t, u, hinit, hcompute, htag, valid, htagin, -⟩ := tag_of_staged_key s m
    obtain ⟨w, hcompare, heq⟩ := exec_tagcmp_16 valid
    refine ⟨t, u, w, hinit, hcompute, hcompare, ?_⟩
    rw [heq, htag, htagin, verify, if_neg (by simp)]
  · intro s k m supplied hlen
    have other : tagcmpLength supplied.length ≠ 16 := mt (tagcmpLength_eq_16 _).mp hlen
    refine ⟨tagcmpLength supplied.length, _, ?_, other, tagcmpLength_fits _, exec_tagcmp_other other s, ?_, rfl⟩
    · rw [verifyProgram, if_pos hlen]
    · rw [verify, if_pos hlen]

end Sys2Proof.Machine
end

section
/-!
PROOFS, the permutation core (spec/41_permutation.md R121 to R130). The model's quarter round is held to R121's eight
assignments once; the lane views of R122 and R123 and the injectivity of PERM follow from that.
-/

namespace Sys2Proof.Machine

/-! ### The commands as functions of `S` -/

/-- What a permutation command makes of `S`. -/
def nextS (i : Instr) (X : Vector Word 16) : Vector Word 16 :=
  match i with
  | .qr a b c d => qr X a b c d
  | .colround => colround X
  | .diaground => diaground X
  | .doubleround => doubleround X
  | .perm => perm20 X
  | .permff => permff X
  | _ => X

/-- A permutation command completes without error and changes `S`, `BUSY` and `DONE` only (R130). -/
theorem exec_permutation {i : Instr} (s : State) (h : isPermutation i = true) :
    exec i s = .next { s with st := nextS i s.st, busy := false, done := true } := by
  cases i with
  | qr | colround | diaground | doubleround | perm | permff => exact finish_eq _
  | _ => cases h

/-- Settles O29: NOP is a completion without error. -/
theorem nopOnlyCompletes : Obligations.NopOnlyCompletes := by
  unfold Obligations.NopOnlyCompletes
  exact finish_eq

/-- Settles O35: `nextS` is a function of the command and `S` alone. -/
theorem permutationCommandsArePure : Obligations.PermutationCommandsArePure := by
  unfold Obligations.PermutationCommandsArePure
  intro i s₁ s₂ hperm hst
  exact ⟨_, _, exec_permutation s₁ hperm, exec_permutation s₂ hperm, congrArg (nextS i) hst, rfl⟩

/-! ### The quarter round's assignments -/

/-- The words of an array as R121's statements see them. -/
def lanes (X : Vector Word 16) : Lanes := fun j => X[j]

theorem lanes_injective : Function.Injective lanes := fun _ _ h =>
  Vector.ext fun i hi => congrFun h ⟨i, hi⟩

theorem lanes_set (X : Vector Word 16) (i : Fin 16) (v : Word) :
    lanes (X.set i v) = Function.update (lanes X) i v := by
  funext k
  by_cases hk : k = i
  · subst hk
    simp [lanes]
  · rw [Function.update_of_ne hk]
    exact getElem_set_other X v hk

/-- Half a quarter round is two of R121's assignments, whatever the indices. -/
theorem lanes_qrHalf (X : Vector Word 16) (a b d : Fin 16) {n : Nat} (h : n < 32) :
    lanes (qrHalf X a b d n) = xorRotInto (addInto (lanes X) a b) d a n := by
  have added : lanes (X.set a (X[a] + X[b])) = addInto (lanes X) a b := lanes_set X a _
  rw [← added, xorRotInto, ← rotl32_eq_rotateLeft _ n h]
  exact lanes_set _ d _

/-- The quarter round is R121's eight assignments, whatever the indices. -/
theorem lanes_qr (X : Vector Word 16) (a b c d : Fin 16) :
    lanes (qr X a b c d) = quarterInOrder (lanes X) a b c d := by
  simp only [qr, quarterInOrder, lanes_qrHalf, Nat.reduceLT]

/-- Settles O30, by `lanes_qr`. -/
theorem quarterRoundInOrder : Obligations.QuarterRoundInOrder := by
  unfold Obligations.QuarterRoundInOrder
  intro s a b c d
  exact ⟨_, exec_permutation s rfl, rfl, congrFun (lanes_qr s.st a b c d)⟩

/-! ### Quarter rounds on disjoint groups of indices -/

/-- The four indices of one quarter round. -/
structure Quad where
  a : Fin 16
  b : Fin 16
  c : Fin 16
  d : Fin 16

def Quad.indices (g : Quad) : List (Fin 16) := [g.a, g.b, g.c, g.d]

theorem Quad.indices_nodup_iff (g : Quad) : g.indices.Nodup ↔
    (g.a ≠ g.b ∧ g.a ≠ g.c ∧ g.a ≠ g.d) ∧ (g.b ≠ g.c ∧ g.b ≠ g.d) ∧ g.c ≠ g.d := by
  simp [Quad.indices]

/-- The words of an array at a group's indices. -/
def Quad.words (g : Quad) (X : Vector Word 16) : Word × Word × Word × Word := (X[g.a], X[g.b], X[g.c], X[g.d])

/-- `quarter` of four words given together. -/
def quarterOf (w : Word × Word × Word × Word) : Word × Word × Word × Word := quarter w.1 w.2.1 w.2.2.1 w.2.2.2

def Quad.round (g : Quad) (X : Vector Word 16) : Vector Word 16 := qr X g.a g.b g.c g.d

/-- One quarter round for each group, in order. -/
def roundAll (gs : List Quad) (X : Vector Word 16) : Vector Word 16 := gs.foldl (fun Y g => g.round Y) X

/-- A quarter round leaves every word it does not name (R121). -/
theorem round_get_other (g : Quad) (X : Vector Word 16) {k : Fin 16} (h : k ∉ g.indices) :
    (g.round X)[k] = X[k] := by
  obtain ⟨ha, hb, hc, hd⟩ : k ≠ g.a ∧ k ≠ g.b ∧ k ≠ g.c ∧ k ≠ g.d := by simpa [Quad.indices] using h
  calc lanes (qr X g.a g.b g.c g.d) k
    _ = quarterInOrder (lanes X) g.a g.b g.c g.d k := congrFun (lanes_qr ..) k
    _ = lanes X k := by simp [quarterInOrder, xorRotInto, addInto, ha, hb, hc, hd]

/-- On four distinct indices the eight assignments are the quarter round of the four words (R121). -/
theorem words_round_self {g : Quad} (h : g.indices.Nodup) (X : Vector Word 16) :
    g.words (g.round X) = quarterOf (g.words X) := by
  obtain ⟨⟨hab, hac, had⟩, ⟨hbc, hbd⟩, hcd⟩ := g.indices_nodup_iff.mp h
  have ordered (k : Fin 16) : (g.round X)[k] = quarterInOrder (lanes X) g.a g.b g.c g.d k :=
    congrFun (lanes_qr X g.a g.b g.c g.d) k
  simp only [Quad.words, ordered, quarterOf, quarter, quarterInOrder, xorRotInto, addInto, lanes,
    Function.update_apply, hab, hac, had, hbc, hbd, hcd, hab.symm, hac.symm, had.symm, hbc.symm, hbd.symm, hcd.symm,
    if_true, if_false]

theorem words_round_other {g h : Quad} (disjoint : h.indices.Disjoint g.indices) (X : Vector Word 16) :
    h.words (g.round X) = h.words X := by
  have kept : ∀ k ∈ h.indices, (g.round X)[k] = X[k] := fun k hk => round_get_other g X (disjoint hk)
  simp only [Quad.indices, List.forall_mem_cons] at kept
  obtain ⟨ha, hb, hc, hd, -⟩ := kept
  simp only [Quad.words, ha, hb, hc, hd]

theorem words_roundAll_other {gs : List Quad} {h : Quad} (disjoint : ∀ g ∈ gs, h.indices.Disjoint g.indices)
    (X : Vector Word 16) : h.words (roundAll gs X) = h.words X := by
  induction gs generalizing X with
  | nil => rfl
  | cons g gs ih =>
    obtain ⟨head, tail⟩ := List.forall_mem_cons.mp disjoint
    exact (ih tail (g.round X)).trans (words_round_other head X)

/-- When no index is named twice, each group's words are its quarter round of the words before all of them, so the order
of the groups does not matter (R127). -/
theorem words_roundAll {gs : List Quad} (distinct : (gs.flatMap Quad.indices).Nodup) {h : Quad} (hmem : h ∈ gs)
    (X : Vector Word 16) : h.words (roundAll gs X) = quarterOf (h.words X) := by
  induction gs generalizing X with
  | nil => cases hmem
  | cons g gs ih =>
    obtain ⟨headDistinct, tailDistinct, disjoint⟩ := List.nodup_append'.mp distinct
    have apart : ∀ k ∈ gs, g.indices.Disjoint k.indices := fun k hk i hi hik =>
      disjoint hi (List.mem_flatMap.mpr ⟨k, hk, hik⟩)
    rcases List.mem_cons.mp hmem with rfl | hmem
    · exact (words_roundAll_other apart _).trans (words_round_self headDistinct X)
    · rw [← words_round_other (apart h hmem).symm X]
      exact ih tailDistinct hmem (g.round X)

/-- The column groups (R122). -/
def columns : List Quad := [⟨0, 4, 8, 12⟩, ⟨1, 5, 9, 13⟩, ⟨2, 6, 10, 14⟩, ⟨3, 7, 11, 15⟩]

/-- The diagonal groups (R123). -/
def diagonals : List Quad := [⟨0, 5, 10, 15⟩, ⟨1, 6, 11, 12⟩, ⟨2, 7, 8, 13⟩, ⟨3, 4, 9, 14⟩]

theorem colround_eq_roundAll : colround = roundAll columns := rfl

theorem diaground_eq_roundAll : diaground = roundAll diagonals := rfl

theorem columns_distinct : (columns.flatMap Quad.indices).Nodup := by decide

theorem diagonals_distinct : (diagonals.flatMap Quad.indices).Nodup := by decide

/-- Settles O31: no two columns share an index. -/
theorem columnRoundByLanes : Obligations.ColumnRoundByLanes := by
  unfold Obligations.ColumnRoundByLanes
  intro s
  have lane : ∀ g ∈ columns, g.words (colround s.st) = quarterOf (g.words s.st) := by
    rw [colround_eq_roundAll]
    exact fun g hg => words_roundAll columns_distinct hg s.st
  simp only [columns, List.forall_mem_cons] at lane
  obtain ⟨lane₀, lane₁, lane₂, lane₃, -⟩ := lane
  exact ⟨_, exec_permutation s rfl, rfl, lane₀, lane₁, lane₂, lane₃⟩

/-- Settles O32: no two diagonals share an index. -/
theorem diagonalRoundByLanes : Obligations.DiagonalRoundByLanes := by
  unfold Obligations.DiagonalRoundByLanes
  intro s
  have lane : ∀ g ∈ diagonals, g.words (diaground s.st) = quarterOf (g.words s.st) := by
    rw [diaground_eq_roundAll]
    exact fun g hg => words_roundAll diagonals_distinct hg s.st
  simp only [diagonals, List.forall_mem_cons] at lane
  obtain ⟨lane₀, lane₁, lane₂, lane₃, -⟩ := lane
  exact ⟨_, exec_permutation s rfl, rfl, lane₀, lane₁, lane₂, lane₃⟩

/-! ### Ten double rounds -/

/-- The rounds may be counted from the first as from the last. -/
theorem doublerounds_succ_first (n : Nat) (X : Vector Word 16) :
    doublerounds (n + 1) X = doublerounds n (doubleround X) := by
  induction n with
  | zero => rfl
  | succ n ih => exact congrArg doubleround ih

theorem execAll_cons {i : Instr} {s t : State} (h : exec i s = .next t) (rest : List Instr) :
    execAll (i :: rest) s = execAll rest t := by
  rw [execAll, h]

/-- A run of DOUBLEROUND commands is that many double rounds (R124, R231). -/
theorem execAll_doublerounds (n : Nat) (s : State) : execAll (List.replicate (n + 1) .doubleround) s =
    .next { s with st := doublerounds (n + 1) s.st, busy := false, done := true } := by
  induction n generalizing s with
  | zero => exact execAll_cons (exec_permutation s rfl) []
  | succ n ih =>
    rw [List.replicate_succ, execAll_cons (exec_permutation s rfl), doublerounds_succ_first]
    exact ih _

/-- Settles O33: both sides run the same rounds on `S`. -/
theorem doubleRoundAndPermAreSequences : Obligations.DoubleRoundAndPermAreSequences := by
  unfold Obligations.DoubleRoundAndPermAreSequences
  intro s
  have sequence : execAll [.colround, .diaground] s =
      .next { s with st := doubleround s.st, busy := false, done := true } := by
    rw [execAll_cons (exec_permutation s rfl), execAll_cons (exec_permutation _ rfl)]
    rfl
  have doubleRound : exec .doubleround s = .next { s with st := doubleround s.st, busy := false, done := true } :=
    exec_permutation s rfl
  have perm : exec .perm s = .next { s with st := doublerounds 10 s.st, busy := false, done := true } :=
    exec_permutation s rfl
  exact ⟨_, _, doubleRound, sequence, rfl, perm, execAll_doublerounds 9 s, rfl⟩

/-- Settles O34, word by word by `permff_get`. -/
theorem permffAddsThePreRoundState : Obligations.PermffAddsThePreRoundState := by
  unfold Obligations.PermffAddsThePreRoundState
  intro s
  refine ⟨_, _, exec_permutation s rfl, exec_permutation s rfl, rfl, fun i => ?_⟩
  exact (congrArg BitVec.toNat (permff_get s.st i i.isLt)).trans (BitVec.toNat_add _ _)

/-! ### PERM is a bijection -/

/-- An assignment to one word that mixes in another word loses nothing, when the mixing can be undone. -/
theorem update_mix_injective {i j : Fin 16} (h : i ≠ j) {mix : Word → Word → Word}
    (undo : ∀ y, Function.Injective fun x => mix x y) :
    Function.Injective fun X : Lanes => Function.update X i (mix (X i) (X j)) := by
  intro X Y e
  have word (k : Fin 16) : Function.update X i (mix (X i) (X j)) k = Function.update Y i (mix (Y i) (Y j)) k :=
    congrFun e k
  have others {k : Fin 16} (hk : k ≠ i) : X k = Y k := by simpa [hk] using word k
  have mixed : mix (X i) (X j) = mix (Y i) (Y j) := by simpa using word i
  rw [others h.symm] at mixed
  funext k
  by_cases hk : k = i
  · rw [hk]
    exact undo (Y j) mixed
  · exact others hk

theorem addInto_injective {a b : Fin 16} (h : a ≠ b) : Function.Injective fun X => addInto X a b :=
  update_mix_injective h add_left_injective

theorem xorRotInto_injective {d a : Fin 16} {n : Nat} (h : d ≠ a) (hn : n < 32) :
    Function.Injective fun X => xorRotInto X d a n := by
  refine update_mix_injective h (mix := fun x y => (x ^^^ y).rotateLeft n) fun y x x' e => ?_
  simp only [← rotl32_eq_rotateLeft _ n hn] at e
  exact (BitVec.xor_left_inj y).mp (rotl32_inj n hn e)

theorem xorRotInto_addInto_injective {a b d : Fin 16} {n : Nat} (hab : a ≠ b) (hda : d ≠ a) (hn : n < 32) :
    Function.Injective fun X => xorRotInto (addInto X a b) d a n :=
  (xorRotInto_injective hda hn).comp (addInto_injective hab)

/-- Each of R121's eight assignments can be undone when its two words are different ones. -/
theorem quarterInOrder_injective {a b c d : Fin 16} (hab : a ≠ b) (had : a ≠ d) (hcd : c ≠ d) (hbc : b ≠ c) :
    Function.Injective fun X => quarterInOrder X a b c d := by
  have half₁ {n : Nat} (hn : n < 32) := xorRotInto_addInto_injective hab had.symm hn
  have half₂ {n : Nat} (hn : n < 32) := xorRotInto_addInto_injective hcd hbc hn
  exact (half₂ (by decide)).comp <| (half₁ (by decide)).comp <| (half₂ (by decide)).comp (half₁ (by decide))

theorem round_injective {g : Quad} (h : g.indices.Nodup) : Function.Injective g.round := by
  obtain ⟨⟨hab, -, had⟩, ⟨hbc, -⟩, hcd⟩ := g.indices_nodup_iff.mp h
  intro X Y e
  refine lanes_injective (quarterInOrder_injective hab had hcd hbc ?_)
  simp only [← lanes_qr]
  exact congrArg lanes e

theorem roundAll_injective {gs : List Quad} (distinct : ∀ g ∈ gs, g.indices.Nodup) :
    Function.Injective (roundAll gs) := by
  induction gs with
  | nil => exact Function.injective_id
  | cons g gs ih =>
    obtain ⟨head, tail⟩ := List.forall_mem_cons.mp distinct
    exact (ih tail).comp (round_injective head)

theorem colround_injective : Function.Injective colround := by
  rw [colround_eq_roundAll]
  exact roundAll_injective (List.nodup_flatMap.mp columns_distinct).1

theorem diaground_injective : Function.Injective diaground := by
  rw [diaground_eq_roundAll]
  exact roundAll_injective (List.nodup_flatMap.mp diagonals_distinct).1

theorem doubleround_injective : Function.Injective doubleround := diaground_injective.comp colround_injective

theorem doublerounds_injective (n : Nat) : Function.Injective (doublerounds n) := by
  induction n with
  | zero => exact Function.injective_id
  | succ n ih => exact doubleround_injective.comp ih

/-- An injective map of the finite set of 512-bit states is a bijection. -/
theorem perm20_bijective : Function.Bijective perm20 :=
  have : Finite (Vector Word 16) := Finite.of_injective lanes lanes_injective
  Finite.injective_iff_bijective.mp (doublerounds_injective 10)

/-- Settles O36, by `perm20_bijective`. -/
theorem permIsABijection : Obligations.PermIsABijection := by
  unfold Obligations.PermIsABijection
  constructor
  · intro s X Y t hX hY
    rw [exec_permutation _ rfl] at hX hY
    have same := congrArg State.st (Host.Outcome.next.inj (hX.trans hY.symm))
    exact perm20_bijective.injective same
  · intro s Z
    obtain ⟨X, hX⟩ := perm20_bijective.surjective Z
    exact ⟨X, _, exec_permutation _ rfl, hX⟩

end Sys2Proof.Machine
end

section
/-!
PROOFS, the invariants of the objects and of the stream (spec/10_state.md R60; spec/43_cipher.md R156 to R158;
spec/45_auth.md R199 to R207): what the checks of a command say of its state, the XOR loop's progress through the
keystream, and the two invariants step by step.
-/

namespace Sys2Proof.Machine

/-! ### What passed checks say -/

/-- When no check fails the table names no code, and only then: every code it names is one of an error (R238). -/
theorem firstFailing_eq_none {table : List (Bool × ErrCode)} (codes : ∀ c ∈ table, c.2 ≠ .none) :
    firstFailing table = .none ↔ ∀ c ∈ table, c.1 = false := by
  induction table with
  | nil => simp [firstFailing]
  | cons c table ih =>
    obtain ⟨code, rest⟩ := List.forall_mem_cons.mp codes
    obtain ⟨failed, c⟩ := c
    cases failed with
    | true => simpa [firstFailing] using code
    | false => simpa [firstFailing] using ih rest

/-- A command completes without error exactly when all its checks pass (R235, R238). -/
theorem completionCode_eq_none {i : Instr} {s : State} :
    completionCode i s = .none ↔ ∀ c ∈ checks i s, c.1 = false :=
  firstFailing_eq_none (by cases i <;> simp [checks])

theorem completionCode_cInit {klen nlen : Nat} {raw : Bool} {s : State} :
    completionCode (.cInit klen nlen raw) s = .none ↔ klen = 32 ∧ nlen = if raw then 12 else 24 := by
  simp [completionCode_eq_none, checks]

theorem completionCode_cStart {s : State} : completionCode .cStart s = .none ↔ s.cvalid = true := by
  simp [completionCode_eq_none, checks]

theorem completionCode_cXor {len : Nat} {z : Bool} {s : State} :
    completionCode (.cXor len z) s = .none ↔ len ≤ 64 ∧ s.cvalid = true ∧ s.cstream = true := by
  simp [completionCode_eq_none, checks]

theorem completionCode_pStart {s : State} : completionCode .pStart s = .none ↔ s.avalid = true := by
  simp [completionCode_eq_none, checks]

theorem completionCode_pBlock {len : Nat} {s : State} :
    completionCode (.pBlock len) s = .none ↔ (0 < len ∧ len ≤ 16) ∧ s.avalid = true ∧ s.pphase = .active := by
  simp [completionCode_eq_none, checks, Nat.pos_iff_ne_zero]

theorem completionCode_pFinal {s : State} :
    completionCode .pFinal s = .none ↔ s.avalid = true ∧ s.pphase ≠ .idle ∧ s.pphase ≠ .done := by
  simp [completionCode_eq_none, checks]

theorem completionCode_tagcmp {len : Nat} {s : State} :
    completionCode (.tagcmp len) s = .none ↔ (len = 16 → s.tvalid = true) := by
  simp [completionCode_eq_none, checks]

/-- What holds after a command's effect when its checks pass, and of the state before its raise, holds before its
completion. -/
theorem beforeCompletion_of_passed {P : State → Prop} {i : Instr} {s : State}
    (whole : completionCode i s = .none → P (effect i s)) (raised : P (beforeRaise i s)) :
    P (beforeCompletion i s) := by
  unfold beforeCompletion
  split
  · exact whole ‹_›
  · exact raised

/-! ### The XOR loop's progress through the keystream -/

/-- Block `i` of the keystream still to come: the held one, then those of the counters from `BCTR` on (R158). -/
def blockAhead (s : State) : Nat → Vector Word 16
  | 0 => s.ks
  | i + 1 => block s.sk (s.bctr + BitVec.ofNat 32 i) s.n12

/-- Byte `j` of the keystream still to come (R158). -/
def byteAhead (s : State) (j : Nat) : Byte := byteOf (blockAhead s ((s.kpos.toNat + j) / 64)) ((s.kpos.toNat + j) % 64)

/-- The number of blocks generated before `n` more bytes of keystream are used, each when a byte needs it (R158). -/
def refills (s : State) (n : Nat) : Nat := (s.kpos.toNat + n - 1) / 64

/-- `t` is `s` with its stream `n` bytes further on. -/
structure Advanced (s : State) (n : Nat) (t : State) : Prop where
  sk : t.sk = s.sk
  n12 : t.n12 = s.n12
  ks : t.ks = blockAhead s (refills s n)
  bctr : t.bctr = s.bctr + BitVec.ofNat 32 (refills s n)
  kpos : t.kpos.toNat + 64 * refills s n = s.kpos.toNat + n

/-- A byte that needs a block finds it generated, and the position at the byte's place in it (R158). -/
theorem refill_of_advanced {s t : State} {n : Nat} (hkpos : s.kpos.toNat ≤ 64) (h : Advanced s n t) :
    (refill t).ks = blockAhead s (refills s (n + 1)) ∧
    (refill t).bctr = s.bctr + BitVec.ofNat 32 (refills s (n + 1)) ∧
    (refill t).kpos.toNat = (s.kpos.toNat + n) % 64 := by
  have used := h.kpos
  unfold refill
  by_cases full : t.kpos = 64
  · have at64 : t.kpos.toNat = 64 := by rw [full]; rfl
    have next : refills s (n + 1) = refills s n + 1 := by unfold refills at *; omega
    simp only [full, if_true, next]
    refine ⟨?_, ?_, ?_⟩
    · rw [blockAhead, h.sk, h.n12, h.bctr]
    · rw [h.bctr, BitVec.add_assoc, BitVec.ofNat_add]
      rfl
    · simp
      omega
  · have below : t.kpos.toNat ≠ 64 := fun e => full (BitVec.eq_of_toNat_eq e)
    have same : refills s (n + 1) = refills s n := by unfold refills at *; omega
    simp only [full, if_false, same]
    refine ⟨h.ks, h.bctr, ?_⟩
    unfold refills at *
    omega

theorem refill_frame (s : State) :
    refill s = { s with ks := (refill s).ks, bctr := (refill s).bctr, kpos := (refill s).kpos } := by
  unfold refill
  split <;> rfl

/-- `n` bytes of the XOR loop use `n` bytes of keystream (R158). -/
theorem xorBytes_advanced (z : Bool) (n : Nat) {s : State} (hkpos : s.kpos.toNat ≤ 64) :
    Advanced s n (xorBytes z n s) := by
  induction n with
  | zero =>
    have none : refills s 0 = 0 := by unfold refills; omega
    constructor <;> simp [none, xorBytes, blockAhead]
  | succ n ih =>
    obtain ⟨ks, bctr, kpos⟩ := refill_of_advanced hkpos ih
    have frame := refill_frame (xorBytes z n s)
    have sk : (refill (xorBytes z n s)).sk = s.sk := by rw [frame]; exact ih.sk
    have n12 : (refill (xorBytes z n s)).n12 = s.n12 := by rw [frame]; exact ih.n12
    refine ⟨sk, n12, ks, bctr, ?_⟩
    simp only [xorBytes, xorByte, BitVec.toNat_add, kpos, refills]
    simp
    omega

/-- The position stays at most 64 (R158). -/
theorem Advanced.kpos_le {s t : State} {n : Nat} (hkpos : s.kpos.toNat ≤ 64) (h : Advanced s n t) :
    t.kpos.toNat ≤ 64 := by
  have used := h.kpos
  unfold refills at used
  omega

/-! ### The object state invariants -/

theorem objectInv_resetFor (v : PolyVariant) : ObjectInv (State.resetFor v) := by
  unfold ObjectInv
  simp

/-- A command whose checks pass keeps the invariants: a phase other than `IDLE` and a tag need an authenticator object,
`EQ` needs a tag, and a stream needs a cipher object (R60). -/
theorem effect_keeps_objectInv {i : Instr} {s : State} (passed : completionCode i s = .none) (h : ObjectInv s) :
    ObjectInv (effect i s) := by
  obtain ⟨stream, phase, tag, eq, kpos⟩ := h
  cases i with
  | cInit => exact ⟨by simp [effect], phase, tag, eq, kpos⟩
  | cStart => exact ⟨fun _ => completionCode_cStart.mp passed, phase, tag, eq, by simp [effect]⟩
  | cXor len z =>
    have bound := (xorBytes_advanced z len kpos).kpos_le kpos
    simp only [effect]
    rw [xorBytes_frame]
    exact ⟨stream, phase, tag, eq, bound⟩
  | pInit => exact ⟨stream, by simp [effect], by simp [effect], by simp [effect], kpos⟩
  | pStart =>
    have object := completionCode_pStart.mp passed
    exact ⟨stream, fun _ => object, by simp [effect], by simp [effect], kpos⟩
  | pBlock len =>
    obtain ⟨-, object, active⟩ := completionCode_pBlock.mp passed
    have noTag : s.tvalid ≠ true := fun valid => by simpa [active] using (tag valid).2
    exact ⟨stream, fun _ => object, fun valid => absurd valid noTag, eq, kpos⟩
  | pFinal =>
    obtain ⟨object, -, -⟩ := completionCode_pFinal.mp passed
    exact ⟨stream, fun _ => object, fun _ => ⟨object, rfl⟩, fun _ => rfl, kpos⟩
  | tagcmp len =>
    have eq' : (effect (.tagcmp len) s).eq = true → s.tvalid = true := by
      by_cases hlen : len = 16
      · exact fun _ => completionCode_tagcmp.mp passed hlen
      · simp [effect, hlen]
    exact ⟨stream, phase, tag, eq', kpos⟩
  | _ => simp only [effect]; exact ⟨stream, phase, tag, eq, kpos⟩

/-- What C_INIT, P_INIT and TAGCMP clear before their raise keeps the invariants: with the object goes what needs it. -/
theorem beforeRaise_keeps_objectInv (i : Instr) {s : State} (h : ObjectInv s) : ObjectInv (beforeRaise i s) := by
  obtain ⟨stream, phase, tag, eq, kpos⟩ := h
  cases i with
  | cInit => exact ⟨by simp [beforeRaise], phase, tag, eq, kpos⟩
  | pInit => exact ⟨stream, by simp [beforeRaise], by simp [beforeRaise], by simp [beforeRaise], kpos⟩
  | tagcmp => exact ⟨stream, phase, tag, by simp [beforeRaise], kpos⟩
  | _ => exact ⟨stream, phase, tag, eq, kpos⟩

/-- Settles O53, by what a step can lead to: only commands write the fields of the invariants. -/
theorem stepKeepsObjectInv : Obligations.StepKeepsObjectInv := by
  unfold Obligations.StepKeepsObjectInv
  intro s t hinv hstep
  cases step_leads hstep with
  | reset u => exact objectInv_resetFor u.variant
  | command i t hrst hturn hdecode hrun =>
    rw [eq_complete_of_exec hrun]
    exact beforeCompletion_of_passed (P := ObjectInv) (effect_keeps_objectInv · hinv)
      (beforeRaise_keeps_objectInv i hinv)
  | illegal => exact hinv
  | quiet => exact hinv
  | write reg v hidle hsoft =>
    have kept := writeReg_keepsEngineState s hsoft
    simpa [ObjectInv, kept.cstream, kept.cvalid, kept.pphase, kept.avalid, kept.tvalid, kept.eq, kept.kpos] using hinv

/-! ### The stream's registers -/

/-- A command keeps the stream's registers those of the object: C_INIT ends the stream, C_START takes them from the
object, and C_XOR keeps `KS` the block before `BCTR` (R156 to R158). -/
theorem effect_keeps_streamInv (i : Instr) {s : State} (h : StreamInv s) : StreamInv (effect i s) := by
  cases i with
  | cInit => simp [StreamInv, effect]
  | cStart => exact fun _ => ⟨rfl, rfl, by simp [effect], by simp [effect]⟩
  | cXor len z =>
    intro started
    simp only [effect] at started ⊢
    rw [xorBytes_frame] at started
    obtain ⟨sk, n12, kpos, held⟩ := h started
    have held' := xorBytes_held z len s kpos held
    rw [xorBytes_frame]
    exact ⟨sk, n12, held'⟩
  | _ => simp only [effect]; exact h

/-- A failing C_INIT ends the stream with the object (R156); no other raise touches it. -/
theorem beforeRaise_keeps_streamInv (i : Instr) {s : State} (h : StreamInv s) : StreamInv (beforeRaise i s) := by
  cases i with
  | cInit => simp [StreamInv, beforeRaise]
  | _ => exact h

/-- Settles O56, by what a step can lead to: only commands write the stream's registers and the object. -/
theorem stepKeepsStreamInv : Obligations.StepKeepsStreamInv := by
  unfold Obligations.StepKeepsStreamInv
  intro s t hinv hstep
  cases step_leads hstep with
  | reset u => simp [StreamInv, blockReset]
  | command i t hrst hturn hdecode hrun =>
    rw [eq_complete_of_exec hrun]
    exact beforeCompletion_of (P := StreamInv) (effect_keeps_streamInv i hinv) (beforeRaise_keeps_streamInv i hinv)
  | illegal => exact hinv
  | quiet => exact hinv
  | write reg v hidle hsoft =>
    have kept := writeReg_keepsEngineState s hsoft
    simpa [StreamInv, kept.cstream, kept.craw, kept.ckey, kept.cnonce, kept.sk, kept.n12, kept.kpos, kept.ks,
      kept.bctr] using hinv

end Sys2Proof.Machine
end

section
/-!
PROOFS, the cipher commands (spec/43_cipher.md R151 to R160): C_INIT and C_START, what one C_XOR puts out, and a request
of several against the message-level keystream.
-/

namespace Sys2Proof.Machine

/-! ### C_INIT and C_START -/

/-- A command one of whose checks fails completes the assignments before its raise, with the code (R236). -/
theorem exec_of_failed {i : Instr} {s : State} (h : completionCode i s ≠ .none) :
    exec i s = .next { beforeRaise i s with
      busy := false, done := true, err := true, errcode := completionCode i s } := by
  rw [exec_eq_complete, beforeCompletion, if_neg h]
  exact raiseError_eq _ _ h

/-- Settles O38: the lengths are C_INIT's one check. -/
theorem cInitConstructsOrDestroys : Obligations.CInitConstructsOrDestroys := by
  unfold Obligations.CInitConstructsOrDestroys
  intro s klen nlen raw
  constructor
  · exact fun lengths => exec_of_checks (completionCode_cInit.mpr lengths)
  · intro lengths
    have failed : completionCode (.cInit klen nlen raw) s ≠ .none := mt completionCode_cInit.mp lengths
    have code : completionCode (.cInit klen nlen raw) s = .size := (ite_eq_or_eq _ _ _).resolve_right failed
    rw [exec_of_failed failed, code]
    rfl

/-- Settles O39: HCHACHA on the object's key and nonce is the derived subkey. -/
theorem cStartRestartsFromTheStoredCounter : Obligations.CStartRestartsFromTheStoredCounter := by
  unfold Obligations.CStartRestartsFromTheStoredCounter
  intro s object
  exact ⟨_, _, exec_of_checks (completionCode_cStart.mpr object), finish_eq _, rfl, rfl, rfl, rfl, rfl, rfl⟩

/-! ### What one C_XOR puts out -/

/-- Byte `j` of C_XOR's input: 0 in the zero-input mode, otherwise `DIN`'s (R158). -/
def inputByte (z : Bool) (s : State) (j : Nat) : Byte := if z then 0 else byteOf s.din j

@[simp] theorem byteOf_zeros (n j : Nat) : byteOf (Vector.replicate n 0) j = 0 := by
  unfold byteOf
  by_cases h : j / 4 < n <;> simp [h, wordByte]

theorem xorBytes_din (z : Bool) (n : Nat) (s : State) : (xorBytes z n s).din = s.din := by rw [xorBytes_frame]

/-- One more byte of the XOR loop: the input byte with the next keystream byte, at its place in the output (R158). -/
theorem xorBytes_succ_dout (z : Bool) (n : Nat) {s : State} (hkpos : s.kpos.toNat ≤ 64) :
    (xorBytes z (n + 1) s).dout = setByte (xorBytes z n s).dout n (inputByte z s n ^^^ byteAhead s n) := by
  obtain ⟨ks, -, kpos⟩ := refill_of_advanced hkpos (xorBytes_advanced z n hkpos)
  have place : refills s (n + 1) = (s.kpos.toNat + n) / 64 := rfl
  have frame := refill_frame (xorBytes z n s)
  have din : (refill (xorBytes z n s)).din = s.din := by rw [frame]; exact xorBytes_din z n s
  have dout : (refill (xorBytes z n s)).dout = (xorBytes z n s).dout := by rw [frame]
  simp only [xorBytes, xorByte, din, dout, ks, kpos, place]
  rfl

/-- The output of the XOR loop, byte by byte (R158). -/
theorem byteOf_xorBytes (z : Bool) {n : Nat} (h64 : n ≤ 64) {s : State} (hkpos : s.kpos.toNat ≤ 64) (j : Nat) :
    byteOf (xorBytes z n s).dout j = if j < n then inputByte z s j ^^^ byteAhead s j else 0 := by
  induction n with
  | zero => exact byteOf_zeros 16 j
  | succ n ih =>
    rw [xorBytes_succ_dout z n hkpos]
    by_cases last : j = n
    · rw [last, byteOf_setByte_same _ _ _ (by omega), if_pos (by omega)]
    · have others : j < n + 1 ↔ j < n := by omega
      rw [byteOf_setByte_other _ _ _ _ last, ih (by omega)]
      simp only [others]

/-- C_XOR on a started stream runs the XOR loop (R158). -/
theorem exec_cXor {s : State} {len : Nat} (z : Bool) (h64 : len ≤ 64) (object : s.cvalid = true)
    (started : s.cstream = true) :
    exec (.cXor len z) s = .next { xorBytes z len s with busy := false, done := true } :=
  exec_of_checks (completionCode_cXor.mpr ⟨h64, object, started⟩)

/-- The keystream still to come is the rest of the held block, then the block of `BCTR` (R158). -/
theorem byteAhead_eq {s : State} {j : Nat} (hj : s.kpos.toNat + j < 128) :
    byteAhead s j = if s.kpos.toNat + j < 64 then byteOf s.ks (s.kpos.toNat + j)
      else byteOf (block s.sk s.bctr s.n12) (s.kpos.toNat + j - 64) := by
  unfold byteAhead
  by_cases held : s.kpos.toNat + j < 64
  · rw [if_pos held, Nat.div_eq_of_lt held, Nat.mod_eq_of_lt held, blockAhead]
  · have next : (s.kpos.toNat + j) / 64 = 1 := by omega
    have place : (s.kpos.toNat + j) % 64 = s.kpos.toNat + j - 64 := by omega
    rw [if_neg held, next, place, blockAhead, BitVec.add_zero]

/-- Settles O40: the loop's output byte by byte, and its progress through at most one new block. -/
theorem cXorMovesBytesThroughThePipeline : Obligations.CXorMovesBytesThroughThePipeline := by
  unfold Obligations.CXorMovesBytesThroughThePipeline
  intro s len z h64 object started hkpos
  have output := byteOf_xorBytes z h64 hkpos
  have progress := xorBytes_advanced z len hkpos
  have position := progress.kpos
  refine ⟨_, exec_cXor z h64 object started, ?_, ?_, ?_, ?_, ?_⟩
  · intro j hj
    rw [← byteAhead_eq (by omega)]
    exact (output j).trans (if_pos hj)
  · intro j hj _
    exact (output j).trans (if_neg (by omega))
  · intro inHeld
    have none : refills s len = 0 := by unfold refills; omega
    rw [none] at position
    refine ⟨position, ?_, ?_⟩
    · simpa [none] using progress.bctr
    · simpa [none, blockAhead] using progress.ks
  · intro beyond
    have one : refills s len = 1 := by unfold refills; omega
    rw [one] at position
    refine ⟨?_, ?_, ?_⟩
    · show (xorBytes z len s).kpos.toNat = _
      omega
    · show (xorBytes z len s).bctr.toNat = _
      rw [progress.bctr, one]
      simp
    · simpa [one, blockAhead] using progress.ks
  · rw [xorBytes_frame]

/-! ### A request of several C_XOR commands -/

/-- The next `n` bytes of the keystream (R158). -/
def bytesAhead (s : State) (n : Nat) : List Byte := (List.range n).map (byteAhead s)

@[simp] theorem bytesAhead_length (s : State) (n : Nat) : (bytesAhead s n).length = n := by simp [bytesAhead]

/-- The keystream `n` bytes further on is the keystream without its first `n` bytes (R158). -/
theorem Advanced.byteAhead_eq_add {s t : State} {n : Nat} (h : Advanced s n t) (j : Nat) :
    byteAhead t j = byteAhead s (n + j) := by
  have blocks : ∀ i, blockAhead t i = blockAhead s (refills s n + i) := by
    intro i
    cases i with
    | zero => exact h.ks
    | succ i => rw [← Nat.add_assoc, blockAhead, blockAhead, h.sk, h.n12, h.bctr, BitVec.add_assoc, BitVec.ofNat_add]
  have used := h.kpos
  have index : (s.kpos.toNat + (n + j)) / 64 = refills s n + (t.kpos.toNat + j) / 64 := by omega
  have place : (s.kpos.toNat + (n + j)) % 64 = (t.kpos.toNat + j) % 64 := by omega
  rw [byteAhead, byteAhead, blocks, index, place]

theorem Advanced.bytesAhead_append {s t : State} {m : Nat} (h : Advanced s m t) (n : Nat) :
    bytesAhead s m ++ bytesAhead t n = bytesAhead s (m + n) := by
  simp [bytesAhead, List.range_add, h.byteAhead_eq_add]

@[simp] theorem Chunk.bytes_length (c : Chunk) : c.bytes.length = c.len := by
  unfold Chunk.bytes
  split <;> simp

/-- The bytes a C_XOR of a chunk puts out (R158, R159). -/
theorem bytesFrom_xorBytes_chunk (c : Chunk) (h64 : c.len ≤ 64) {s : State} (hkpos : s.kpos.toNat ≤ 64)
    (staged : s.din = c.input) :
    bytesFrom (xorBytes c.z c.len s).dout 0 c.len =
      List.zipWith (fun d k => d ^^^ k) c.bytes (bytesAhead s c.len) := by
  have input : c.bytes = (List.range c.len).map (inputByte c.z s) := by
    unfold Chunk.bytes inputByte
    cases c.z <;> simp [bytesFrom, staged, List.map_const']
  rw [input, bytesAhead, bytesFrom, List.zipWith_map, List.zipWith_self]
  refine List.map_congr_left fun j hj => ?_
  rw [Nat.zero_add, byteOf_xorBytes c.z h64 hkpos, if_pos (List.mem_range.mp hj)]

/-- A cipher object on which a stream has been started (R30, R157). -/
structure Streams (s : State) : Prop where
  object : s.cvalid = true
  started : s.cstream = true
  kpos : s.kpos.toNat ≤ 64

/-- What a request on a cipher object leaves alone: the object and the reported error. -/
structure SameCipher (s t : State) : Prop where
  cvalid : t.cvalid = s.cvalid
  craw : t.craw = s.craw
  object : SameCipherObject s t
  errcode : t.errcode = s.errcode

theorem SameCipher.trans {s t u : State} (first : SameCipher s t) (second : SameCipher t u) : SameCipher s u := by
  obtain ⟨ckey, cnonce, cctr0⟩ := first.object
  obtain ⟨ckey', cnonce', cctr0'⟩ := second.object
  exact ⟨second.cvalid.trans first.cvalid, second.craw.trans first.craw,
    ⟨ckey'.trans ckey, cnonce'.trans cnonce, cctr0'.trans cctr0⟩, second.errcode.trans first.errcode⟩

/-- C_START on an object puts the message-level keystream ahead, from the stored counter (R155, R157). -/
theorem exec_cStart_object {s : State} (object : s.cvalid = true) : ∃ t, exec .cStart s = .next t ∧ SameCipher s t ∧
    Streams t ∧ t.din = s.din ∧ ∀ n, bytesAhead t n = xks s.craw s.ckey s.cnonce s.cctr0 n := by
  refine ⟨_, exec_of_checks (completionCode_cStart.mpr object), ⟨rfl, rfl, ⟨rfl, rfl, rfl⟩, rfl⟩,
    ⟨object, rfl, le_rfl⟩, rfl, fun n => List.map_congr_left fun j _ => ?_⟩
  have index : (64 + j) / 64 = j / 64 + 1 := by omega
  have place : (64 + j) % 64 = j % 64 := by omega
  simp [byteAhead, keystreamByte, effect, index, place, blockAhead]

/-- A C_XOR of a staged chunk puts out its bytes with the keystream ahead, and the stream goes on (R158, R159). -/
theorem exec_cXor_chunk {c : Chunk} (h64 : c.len ≤ 64) {s : State} (stream : Streams s) (staged : s.din = c.input) :
    ∃ t, exec (.cXor c.len c.z) s = .next t ∧ SameCipher s t ∧ Streams t ∧ Advanced s c.len t ∧
      bytesFrom t.dout 0 c.len = List.zipWith (fun d k => d ^^^ k) c.bytes (bytesAhead s c.len) := by
  have progress := xorBytes_advanced c.z c.len stream.kpos
  have position := progress.kpos_le stream.kpos
  have frame := xorBytes_frame c.z c.len s
  have same : SameCipher s (xorBytes c.z c.len s) := by
    rw [frame]
    exact ⟨rfl, rfl, ⟨rfl, rfl, rfl⟩, rfl⟩
  have started : (xorBytes c.z c.len s).cstream = true := by
    rw [frame]
    exact stream.started
  refine ⟨_, exec_cXor c.z h64 stream.object stream.started, ?_, ?_, ?_, ?_⟩
  · exact ⟨same.cvalid, same.craw, same.object, same.errcode⟩
  · exact ⟨same.cvalid.trans stream.object, started, position⟩
  · exact ⟨progress.sk, progress.n12, progress.ks, progress.bctr, progress.kpos⟩
  · exact bytesFrom_xorBytes_chunk c h64 stream.kpos staged

/-- C_XOR commands put out their input with the keystream ahead, each going on where the one before stopped (R159). -/
theorem xorStream_eq {cs : List Chunk} (h64 : ∀ c ∈ cs, c.len ≤ 64) {s : State} (stream : Streams s)
    (noError : s.errcode = .none) :
    xorStream cs s = some (List.zipWith (fun d k => d ^^^ k) (cs.map Chunk.bytes).flatten
      (bytesAhead s (cs.map Chunk.len).sum)) := by
  induction cs generalizing s with
  | nil => rfl
  | cons c cs ih =>
    obtain ⟨hc, others⟩ := List.forall_mem_cons.mp h64
    have staged : Streams { s with din := c.input } := ⟨stream.object, stream.started, stream.kpos⟩
    obtain ⟨t, hexec, same, stream', progress, output⟩ := exec_cXor_chunk hc staged rfl
    have noError' : t.errcode = .none := same.errcode.trans noError
    have lengths : c.bytes.length = (bytesAhead { s with din := c.input } c.len).length := by simp
    simp only [xorStream, hexec, if_pos noError', ih others stream' noError', output, Option.map_some,
      ← List.zipWith_append lengths, progress.bytesAhead_append]
    rfl

/-- Settles O41: C_START puts the reference's keystream ahead, and the C_XOR commands use it in order. -/
theorem streamCorrespondence : Obligations.StreamCorrespondence := by
  unfold Obligations.StreamCorrespondence
  intro s cs object noError h64
  obtain ⟨t, hstart, same, stream, -, ahead⟩ := exec_cStart_object object
  refine ⟨t, hstart, ?_⟩
  rw [xorStream_eq h64 stream (same.errcode.trans noError), ahead]

/-! ### Two requests -/

/-- A request of up to 64 bytes puts out the reference's encryption of the staged bytes, and keeps the object (R155,
R159). -/
theorem request_encrypts {s : State} {len : Nat} (object : s.cvalid = true) (h64 : len ≤ 64) :
    ∃ t, execAll [.cStart, .cXor len false] s = .next t ∧ SameCipher s t ∧
      bytesFrom t.dout 0 len = encrypt s.craw s.ckey s.cnonce s.cctr0 (bytesFrom s.din 0 len) := by
  obtain ⟨t, hstart, same, stream, din, ahead⟩ := exec_cStart_object object
  obtain ⟨u, hxor, same', -, -, output⟩ := exec_cXor_chunk (c := ⟨s.din, len, false⟩) h64 stream din
  refine ⟨u, ?_, same.trans same', ?_⟩
  · rw [execAll_cons hstart, execAll_cons hxor, execAll]
  · rw [output, ahead, encrypt, bytesFrom_length]
    rfl

/-- "encrypt(encrypt(m)) == m" (R160). -/
theorem encrypt_encrypt (raw : Bool) (K : Vector Word 8) (N : Vector Word 6) (c0 : Word) (m : List Byte) :
    encrypt raw K N c0 (encrypt raw K N c0 m) = m := by
  apply List.ext_getElem
  · simp [encrypt, xks, keystream]
  · intro j _ _
    simp [encrypt, xks, keystream]

/-- Settles O42: both requests are the reference's encryption on one object. -/
theorem secondRequestDecrypts : Obligations.SecondRequestDecrypts := by
  unfold Obligations.SecondRequestDecrypts
  intro s len object h64
  obtain ⟨t, hfirst, same, output⟩ := request_encrypts object h64
  obtain ⟨u, hsecond, -, output'⟩ := request_encrypts (s := { t with din := t.dout }) (same.cvalid.trans object) h64
  obtain ⟨ckey, cnonce, cctr0⟩ := same.object
  refine ⟨t, u, hfirst, hsecond, output'.trans ?_⟩
  simp only [output, same.craw, ckey, cnonce, cctr0, encrypt_encrypt]

end Sys2Proof.Machine
end

section
/-!
PROOFS, field arithmetic (spec/44_field.md R181 to R185). FADD and FMUL have no check to fail (R184), and their results,
canonical residues, fit `FR`.
-/

namespace Sys2Proof.Machine

/-- Settles O43: the residue of the sum fits `FR`. -/
theorem faddIsTheSumModP : Obligations.FaddIsTheSumModP := by
  unfold Obligations.FaddIsTheSumModP
  intro s
  exact ⟨_, exec_of_checks rfl, residue_fits (fieldAdd_lt s.fa.toNat s.fb.toNat), rfl⟩

/-- Settles O44: the residue of the full product fits `FR`. -/
theorem fmulIsTheProductModP : Obligations.FmulIsTheProductModP := by
  unfold Obligations.FmulIsTheProductModP
  intro s
  exact ⟨_, exec_of_checks rfl, residue_fits (fieldMul_lt s.fa.toNat s.fb.toNat), rfl⟩

end Sys2Proof.Machine
end

section
/-!
PROOFS, the authenticator's commands (spec/45_auth.md R196 to R212). The registers of 128 bits against their bytes, the
clamp as masks, then each command, a message's tag and the messages of zero bytes.
-/

namespace Sys2Proof.Machine

/-! ### Registers of 128 bits and their bytes -/

/-- A multi-word integer register is the LE value of its bytes (R13, R24). -/
theorem leValue_numBytes {n : Nat} (x : BitVec n) (len : Nat) : leValue (numBytes x len) = x.toNat % 2 ^ (8 * len) := by
  rw [numBytes_eq_leBytes, leValue_leBytes]

/-- A 128-bit register holds what its 16 bytes say (R24). -/
theorem numBytes_injective : Function.Injective fun x : BitVec 128 => numBytes x 16 := by
  intro x y bytes
  apply BitVec.eq_of_toNat_eq
  simpa [leValue_numBytes, Nat.mod_eq_of_lt x.isLt, Nat.mod_eq_of_lt y.isLt] using congrArg leValue bytes

theorem eq_of_numByte_eq {x y : BitVec 128} (bytes : ∀ j < 16, numByte x j = numByte y j) : x = y :=
  numBytes_injective (List.map_congr_left fun j hj => bytes j (List.mem_range.mp hj))

@[simp] theorem numByte_and {n : Nat} (x y : BitVec n) (j : Nat) : numByte (x &&& y) j = numByte x j &&& numByte y j :=
  BitVec.extractLsb'_and

@[simp] theorem numByte_or {n : Nat} (x y : BitVec n) (j : Nat) : numByte (x ||| y) j = numByte x j ||| numByte y j :=
  BitVec.extractLsb'_or

/-- The register loaded with the LE value of 16 bytes holds them (R13, R24). -/
theorem numByte_ofNat_leValue {bs : List Byte} (h16 : bs.length = 16) {j : Nat} (hj : j < bs.length) :
    numByte (BitVec.ofNat 128 (leValue bs)) j = bs[j] := by
  have fits : leValue bs < 2 ^ 128 := by simpa [h16] using leValue_lt bs
  rw [numByte_eq_ofNat, BitVec.toNat_ofNat, Nat.mod_eq_of_lt fits, ofNat_leValue_div bs hj]

/-- Four consecutive words of a register array as one integer (R24). -/
def fourWords {n : Nat} (A : Vector Word n) (start : Nat) (h : start + 4 ≤ n) : BitVec 128 :=
  A[start + 3] ++ A[start + 2] ++ A[start + 1] ++ A[start]

theorem keyHalf_eq_fourWords (A : Vector Word 8) (start : Fin 5) : keyHalf A start = fourWords A start (by omega) := rfl

theorem frontValue_eq_fourWords (A : Vector Word 16) : frontValue A = (fourWords A 0 (by omega)).toNat := rfl

/-- The bytes of a register whose lowest word is `w` are `w`'s, then the rest's (R24). -/
theorem numByte_append_word {n : Nat} (x : BitVec n) (w : Word) (j : Nat) :
    numByte (x ++ w) j = if j < 4 then wordByte w j else numByte x (j - 4) := by
  split
  · exact BitVec.extractLsb'_append_eq_of_add_le (by omega)
  · rw [numByte, BitVec.extractLsb'_append_eq_of_le (by omega), numByte, Nat.mul_sub]

/-- Byte j of the integer is byte j of the array from its first word on (R14, R24). -/
theorem numByte_fourWords {n : Nat} (A : Vector Word n) {start : Nat} (h : start + 4 ≤ n) {j : Nat} (hj : j < 16) :
    numByte (fourWords A start h) j = byteOf A (4 * start + j) := by
  have word : (4 * start + j) / 4 = start + j / 4 := by omega
  have byte : (4 * start + j) % 4 = j % 4 := by omega
  have inside : start + j / 4 < n := by omega
  rw [byteOf, word, byte, Vector.getElem?_eq_getElem inside, Option.getD_some]
  simp only [fourWords, numByte_append_word]
  interval_cases j <;> rfl

/-- The array's bytes from a word on are those of the integer (R14, R24). -/
theorem bytesFrom_eq_numBytes {n : Nat} (A : Vector Word n) {start len : Nat} (h : start + 4 ≤ n) (h16 : len ≤ 16) :
    bytesFrom A (4 * start) len = numBytes (fourWords A start h) len :=
  List.map_congr_left fun _ hj => (numByte_fourWords A h ((List.mem_range.mp hj).trans_le h16)).symm

/-- The integer of a half of a key is the LE value of its bytes (R13, R24). -/
theorem ofNat_leValue_keyHalf (A : Vector Word 8) (start : Fin 5) :
    BitVec.ofNat 128 (leValue (bytesFrom A (4 * start) 16)) = keyHalf A start := by
  rw [bytesFrom_eq_numBytes A (by omega) le_rfl, leValue_numBytes, keyHalf_eq_fourWords,
    Nat.mod_eq_of_lt (BitVec.isLt _), BitVec.ofNat_toNat, BitVec.setWidth_eq]

/-! ### The clamp as masks -/

/-- `clamp` on the multiplier's integer (R197). -/
def clampWord (v : PolyVariant) (x : BitVec 128) : BitVec 128 :=
  match v with
  | .rfc8439 => x &&& 0x0FFFFFFC0FFFFFFC0FFFFFFC0FFFFFFF#128
  | .docLiteral => (x &&& 0x0FFFFFFF0FFFFFFF0FFFFFFF0FFFFFFF#128) ||| 0x04000000040000000400000004000000#128

theorem byte_and_255 (b : Byte) : b &&& 255#8 = b := BitVec.and_allOnes

/-- Byte by byte, the masks are `clamp`'s (R197). -/
theorem numByte_clampWord (v : PolyVariant) (x : BitVec 128) {j : Nat} (hj : j < 16) :
    numByte (clampWord v x) j = clampByte v j (numByte x j) := by
  cases v with
  | rfc8439 =>
    simp only [clampWord, clampByte, numByte_and]
    interval_cases j <;> simp [numByte, byte_and_255]
  | docLiteral =>
    simp only [clampWord, clampByte, numByte_and, numByte_or]
    interval_cases j <;> simp [numByte, byte_and_255]

/-- The LE value of 16 clamped bytes is the clamped LE value (R197). -/
theorem ofNat_leValue_clamp (v : PolyVariant) {bs : List Byte} (h16 : bs.length = 16) :
    BitVec.ofNat 128 (leValue (clamp v bs)) = clampWord v (BitVec.ofNat 128 (leValue bs)) := by
  apply eq_of_numByte_eq
  intro j hj
  have inside : j < bs.length := by omega
  rw [numByte_clampWord v _ hj, numByte_ofNat_leValue h16 inside, numByte_ofNat_leValue (by simpa using h16) (by simpa)]
  simp [clamp]

/-- A clamped multiplier stays as it is when clamped again (R197). -/
theorem clampWord_idem (v : PolyVariant) (x : BitVec 128) : clampWord v (clampWord v x) = clampWord v x := by
  cases v with
  | rfc8439 => simp [clampWord, BitVec.and_assoc]
  | docLiteral =>
    simp only [clampWord]
    rw [BitVec.and_or_distrib_right, BitVec.and_assoc, BitVec.and_self, BitVec.or_assoc]
    rfl

theorem clampInv_iff (s : State) : ClampInv s ↔ (s.avalid = true → clampWord s.variant s.r = s.r) := by
  unfold ClampInv clampWord
  cases s.variant <;> rfl

/-- The multiplier P_INIT makes is the clamped first half of the key (R197, R200). -/
theorem ofNat_leValue_clamp_key (v : PolyVariant) (A : Vector Word 8) :
    BitVec.ofNat 128 (leValue (clamp v (bytesFrom A 0 16))) = clampWord v (keyHalf A 0) := by
  rw [ofNat_leValue_clamp v (bytesFrom_length A 0 16)]
  exact congrArg (clampWord v) (ofNat_leValue_keyHalf A 0)

/-! ### The commands -/

theorem completionCode_pInit {klen : Nat} {s : State} : completionCode (.pInit klen) s = .none ↔ klen = 32 := by
  simp [completionCode_eq_none, checks]

/-- Settles O45: the length is P_INIT's one check, and the clamped bytes of the key half are the masked half. -/
theorem pInitClampsTheMultiplier : Obligations.PInitClampsTheMultiplier := by
  unfold Obligations.PInitClampsTheMultiplier
  intro s
  constructor
  · exact ⟨_, exec_of_checks (completionCode_pInit.mpr rfl), ofNat_leValue_clamp_key s.variant s.pkeyin,
      ofNat_leValue_keyHalf s.pkeyin 4, rfl⟩
  · intro klen size
    have failed : completionCode (.pInit klen) s ≠ .none := mt completionCode_pInit.mp size
    have code : completionCode (.pInit klen) s = .size := (ite_eq_or_eq _ _ _).resolve_right failed
    rw [exec_of_failed failed, code]
    rfl

/-- Settles O46: an object is P_START's one check. -/
theorem pStartBeginsAComputation : Obligations.PStartBeginsAComputation := by
  unfold Obligations.PStartBeginsAComputation
  exact fun s object => exec_of_checks (completionCode_pStart.mpr object)

/-- The value of a block is a function of the integer of the block's 16 byte positions and its length (R198). -/
theorem blockValue_eq_encodedBlock (v : PolyVariant) (A : Vector Word 16) {len : Nat} (h16 : len ≤ 16) :
    blockValue v (bytesFrom A 0 len) = encodedBlock v (frontValue A) len := by
  have value : leValue (bytesFrom A 0 len) = frontValue A % 2 ^ (8 * len) := by
    rw [frontValue_eq_fourWords, ← leValue_numBytes, ← bytesFrom_eq_numBytes A (by omega) h16]
  cases v with
  | rfc8439 => simp only [blockValue, encodedBlock, bytesFrom_length, value]
  | docLiteral =>
    simp only [blockValue, encodedBlock, bytesFrom_length, value]
    by_cases full : len = 16
    · rw [if_pos full, if_pos full, full]
      exact Nat.mod_eq_of_lt (BitVec.isLt _)
    · rw [if_neg full, if_neg full]

/-- Settles O47: the residue of the fold fits `H`. -/
theorem pBlockFoldsOneBlock : Obligations.PBlockFoldsOneBlock := by
  unfold Obligations.PBlockFoldsOneBlock
  intro s len h1 h16 object active
  refine ⟨_, exec_of_checks (completionCode_pBlock.mpr ⟨⟨h1, h16⟩, object, active⟩), ?_, ?_, rfl⟩
  · rw [← blockValue_eq_encodedBlock s.variant s.din h16]
    exact residue_fits (fold_lt _ _ _)
  · rw [← active]
    rfl

/-- The accumulator P_FINAL adds the pad to, as an integer (R204). -/
theorem finalAccumulator_toNat (s : State) : (finalAccumulator s).toNat =
    if s.variant = .docLiteral ∧ s.pphase = .active then fold s.r.toNat s.h.toNat (2 ^ 127) else s.h.toNat := by
  unfold finalAccumulator
  split
  · exact residue_fits (fold_lt _ _ _)
  · rfl

/-- Settles O48: an object and a computation in progress are P_FINAL's checks. -/
theorem pFinalAddsThePad : Obligations.PFinalAddsThePad := by
  unfold Obligations.PFinalAddsThePad
  intro s object running
  have phase : s.pphase ≠ .idle ∧ s.pphase ≠ .done := by rcases running with h | h <;> simp [h]
  exact ⟨_, exec_of_checks (completionCode_pFinal.mpr ⟨object, phase⟩), finalAccumulator_toNat s,
    BitVec.toNat_ofNat _ _, rfl⟩

/-- The comparator on the bytes of two 128-bit registers says whether they are equal (R208). -/
theorem ctEq_numBytes (x y : BitVec 128) : ctEq (numBytes x 16) (numBytes y 16) = decide (x = y) := by
  rw [Bool.eq_iff_iff, ctEq_iff _ _ (by simp), decide_eq_true_iff]
  exact numBytes_injective.eq_iff

/-- Settles O49: a valid tag is what TAGCMP of 16 bytes checks, and no other length is checked. -/
theorem tagcmpComparesAllBytes : Obligations.TagcmpComparesAllBytes := by
  unfold Obligations.TagcmpComparesAllBytes
  refine ⟨fun s valid => ?_, fun s len other => exec_tagcmp_other other s⟩
  rw [exec_of_checks (completionCode_tagcmp.mpr fun _ => valid), effect, if_pos rfl, ctEq_numBytes]

/-! ### A message's tag -/

/-- Settles O50, by `tag_of_staged_key`. -/
theorem tagOfAMessage : Obligations.TagOfAMessage := by
  unfold Obligations.TagOfAMessage
  intro s m
  obtain ⟨t, u, hinit, hcompute, htag, valid, -, hcode⟩ := tag_of_staged_key s m
  exact ⟨t, u, hinit, hcompute, htag, valid, hcode⟩

@[simp] theorem leValue_zeros (n : Nat) : leValue (List.replicate n 0#8) = 0 := by
  induction n with
  | zero => rfl
  | succ n ih => simp [List.replicate_succ, leValue, ih]

/-- Blocks of value 0 leave an accumulator of 0 at 0 (R202). -/
theorem foldBlocks_eq_zero {v : PolyVariant} (r : Nat) {blocks : List (List Byte)}
    (zero : ∀ b ∈ blocks, blockValue v b = 0) : foldBlocks v r 0 blocks = 0 := by
  induction blocks with
  | nil => rfl
  | cons b blocks ih =>
    obtain ⟨first, rest⟩ := List.forall_mem_cons.mp zero
    simpa [foldBlocks, first, fold] using ih rest

/-- The full blocks of a message of zero bytes have the value 0 in DOC_LITERAL, which adds nothing to them (R198). -/
theorem blockValue_fullBlocks_zeros (n : Nat) :
    ∀ b ∈ fullBlocks (List.replicate n 0), blockValue .docLiteral b = 0 := by
  intro b hb
  have full := length_of_mem_fullBlocks hb
  obtain ⟨q, -, rfl⟩ := List.mem_map.mp hb
  rw [blockValue, if_pos full]
  simp [messageBlock]

/-- In DOC_LITERAL a message of zero bytes comes to one fold of 2^127, by its short block or by the final-block rule
(R198, R204). -/
theorem foldMessage_zeros (r n : Nat) : foldMessage .docLiteral r (List.replicate n 0) = fold r 0 (2 ^ 127) := by
  have start := foldBlocks_eq_zero r (blockValue_fullBlocks_zeros n)
  by_cases last : (List.replicate n (0 : Byte)).length % 16 = 0
  · rw [foldMessage_of_full last, start]
  · have value : blockValue .docLiteral (lastBytes (List.replicate n 0)) = 2 ^ 127 := by
      have short : (lastBytes (List.replicate n 0)).length ≠ 16 := by simp; omega
      rw [blockValue, if_neg short]
      simp [lastBytes]
    rw [foldMessage_of_short_block last, start, value]

/-- Settles O52: the empty message is the message of no zero bytes. -/
theorem docLiteralZeroMessagesCollide : Obligations.DocLiteralZeroMessagesCollide := by
  unfold Obligations.DocLiteralZeroMessagesCollide
  intro k n
  have same (r : Nat) : foldMessage .docLiteral r (List.replicate n 0) = foldMessage .docLiteral r [] :=
    (foldMessage_zeros r n).trans (foldMessage_zeros r 0).symm
  simp only [tagOf, tagValue, same]

end Sys2Proof.Machine
end

section
/-!
PROOFS, the authenticator's invariants (spec/45_auth.md R197 to R205): the tag of a finished computation, and the
object's clamped multiplier.
-/

namespace Sys2Proof.Machine

/-! ### The tag -/

/-- A command whose checks pass keeps the tag's invariant: P_BLOCK runs in phase `ACTIVE`, where no tag is valid,
P_FINAL makes the tag, and P_INIT and P_START take it away (R199 to R205). -/
theorem effect_keeps_tagInv {i : Instr} {s : State} (passed : completionCode i s = .none) (h : TagInv s) :
    TagInv (effect i s) := by
  obtain ⟨phase, tag⟩ := h
  cases i with
  | cXor len z =>
    simp only [effect]
    rw [xorBytes_frame]
    exact ⟨phase, tag⟩
  | pInit => simp [TagInv, effect]
  | pStart => simp [TagInv, effect]
  | pBlock len =>
    obtain ⟨-, -, active⟩ := completionCode_pBlock.mp passed
    have noTag : s.tvalid = false := by simpa [active] using phase
    by_cases short : len < 16 <;> simp [TagInv, effect, noTag, active, short]
  | pFinal => exact ⟨iff_of_true rfl rfl, fun _ => BitVec.toNat_ofNat _ _⟩
  | _ => simp only [effect]; exact ⟨phase, tag⟩

/-- A failing P_INIT takes the tag away with the phase (R200); no other raise touches either. -/
theorem beforeRaise_keeps_tagInv (i : Instr) {s : State} (h : TagInv s) : TagInv (beforeRaise i s) := by
  cases i with
  | pInit => simp [TagInv, beforeRaise]
  | _ => exact h

/-- Settles O57, by what a step can lead to: only commands write the tag, its validity and what it is made from. -/
theorem stepKeepsTagInv : Obligations.StepKeepsTagInv := by
  unfold Obligations.StepKeepsTagInv
  intro s t hinv hstep
  cases step_leads hstep with
  | reset u => simp [TagInv, blockReset]
  | command i t hrst hturn hdecode hrun =>
    rw [eq_complete_of_exec hrun]
    exact beforeCompletion_of_passed (P := TagInv) (effect_keeps_tagInv · hinv) (beforeRaise_keeps_tagInv i hinv)
  | illegal => exact hinv
  | quiet => exact hinv
  | write reg v hidle hsoft =>
    have kept := writeReg_keepsEngineState s hsoft
    simpa [TagInv, kept.tvalid, kept.pphase, kept.tag, kept.h, kept.pad] using hinv

/-! ### The multiplier -/

/-- P_INIT is the one command that writes the multiplier, and makes it clamped (R197, R200). -/
theorem effect_keeps_clampInv (i : Instr) {s : State} (h : ClampInv s) : ClampInv (effect i s) := by
  cases i with
  | cXor len z =>
    simp only [effect]
    rw [xorBytes_frame]
    exact h
  | pInit klen =>
    rw [clampInv_iff]
    intro _
    simp only [effect]
    rw [ofNat_leValue_clamp_key, clampWord_idem]
  | _ => simp only [effect]; exact h

/-- A failing P_INIT leaves no object (R200); no other raise touches the object. -/
theorem beforeRaise_keeps_clampInv (i : Instr) {s : State} (h : ClampInv s) : ClampInv (beforeRaise i s) := by
  cases i with
  | pInit => simp [ClampInv, beforeRaise]
  | _ => exact h

/-- Settles O58, by what a step can lead to: only commands write the object and its multiplier, and nothing changes the
build's variant. -/
theorem stepKeepsClampInv : Obligations.StepKeepsClampInv := by
  unfold Obligations.StepKeepsClampInv
  intro s t hinv hstep
  cases step_leads hstep with
  | reset u => simp [ClampInv, blockReset]
  | command i t hrst hturn hdecode hrun =>
    rw [eq_complete_of_exec hrun]
    exact beforeCompletion_of (P := ClampInv) (effect_keeps_clampInv i hinv) (beforeRaise_keeps_clampInv i hinv)
  | illegal => exact hinv
  | quiet => exact hinv
  | write reg v hidle hsoft =>
    have kept := writeReg_keepsEngineState s hsoft
    rw [clampInv_iff] at hinv ⊢
    simpa [kept.avalid, kept.variant, kept.r] using hinv

end Sys2Proof.Machine
end

section
/-!
PROOFS, the pin `rst_n` and the end of a run (spec/60_exceptions.md R239, R250; spec/70_reset_and_hazards.md R261,
R279).
-/

namespace Sys2Proof.Machine

/-- While `rst_n` = 0 a step leaves the block at its reset values, whatever the host does (R261). -/
theorem step_held {s : State} (hrst : s.rstN = false) : step s = .next (blockReset (hostTurn s)) := by
  simp [step, turn, hrst]

/-- Without the engine's turn the step is the host's turn (R239). -/
theorem step_hostTurn {s : State} (hrst : s.rstN = true) (hturn : engineTurn s = false) :
    step s = .next (hostTurn (countTurn s)) := by
  simp [step, turn, hrst, hturn]

/-- The count of host turns leaves the host where it is. -/
theorem nextOp_countTurn (s : State) : nextOp (countTurn s) = nextOp s := by
  rw [countTurn_eq]
  rfl

theorem countTurn_hostPos (s : State) : (countTurn s).hostPos = s.hostPos := by rw [countTurn_eq]

theorem hostTurn_of_nextOp {s : State} {op : HostOp} (hop : nextOp s = some op) : hostTurn s = hostOp op s := by
  simp [hostTurn, hop]

/-- Settles O28: the engine has no command to run and the host no operation. -/
theorem nothingChangesAfterTheEnd : Obligations.NothingChangesAfterTheEnd := by
  unfold Obligations.NothingChangesAfterTheEnd
  intro s hrst hidle hend
  have noEngine : engineTurn s = false := by simp [engineTurn, hidle]
  rw [step_hostTurn hrst noEngine, countTurn_idle hidle]
  simp [hostTurn, nextOp, hend]

/-- A block at its reset values: no command in flight, `irq` = 0, every word of the window as R23 says. -/
def AtReset (v : PolyVariant) (t : State) : Prop :=
  t.busy = false ∧ irq t = false ∧ ∀ idx, memRead t idx = resetWord v idx

theorem atReset_blockReset (s : State) : AtReset s.variant (blockReset s) := ⟨rfl, rfl, memRead_blockReset s⟩

theorem writeReg_rstN (reg : Reg) (v : Word) (s : State) : (writeReg reg v s).rstN = s.rstN := by
  cases reg with
  | ctrl => simp only [writeReg]; split <;> rfl
  | _ => rfl

theorem completes_of_exec {i : Instr} {s t : State} (run : exec i s = .next t) : Completes s t := by
  obtain ⟨code, u, hrun, completes⟩ := exec_completes i s
  exact Host.Outcome.next.inj (hrun.symm.trans run) ▸ completes

/-- The step in which `rst_n` falls resets the block: nothing but a reset moves the pin (R261). -/
theorem atReset_of_pin_falls {s t : State} (hstep : step s = .next t) (hrst : s.rstN = true) (hfall : t.rstN = false) :
    AtReset s.variant t := by
  cases step_leads hstep with
  | reset u _ hvariant => exact hvariant ▸ atReset_blockReset u
  | command i t _ _ _ hrun => simp [(completes_of_exec hrun).rstN, hrst] at hfall
  | illegal => simp [hrst] at hfall
  | quiet => simp [State.withHost, hrst] at hfall
  | write reg v => simp [advance, writeReg_rstN, hrst] at hfall

/-- An event at the pin takes it to its level, and the host to its next operation (R261; log 6). -/
theorem hostOp_rstN (level : Bool) (s : State) :
    (hostOp (.rstN level) s).rstN = level ∧ (hostOp (.rstN level) s).hostPos = s.hostPos + 1 := by
  refine ⟨driveResetPin_rstN level s, ?_⟩
  rcases driveResetPin_cases level s with ⟨-, -, hpin⟩ | ⟨-, hpin⟩ <;> simp [hostOp, advance, hpin]

/-- Settles O25: a step with the pin low is a reset, so is the one in which it falls, and an event at the pin is the
host's turn. -/
theorem heldInReset : Obligations.HeldInReset := by
  unfold Obligations.HeldInReset
  have held {s : State} : AtReset s.variant (blockReset (hostTurn s)) :=
    hostTurn_variant s ▸ atReset_blockReset (hostTurn s)
  refine ⟨fun s hrst => ⟨_, step_held hrst, held⟩, fun s t hstep hlow => ?changes, fun s level hop hnext => ?event⟩
  case changes =>
    cases hrst : s.rstN with
    | false =>
      obtain rfl := Host.Outcome.next.inj ((step_held hrst).symm.trans hstep)
      exact held
    | true => exact atReset_of_pin_falls hstep hrst (hlow.resolve_left (by simp [hrst]))
  case event =>
    cases hrst : s.rstN with
    | false =>
      refine ⟨_, step_held hrst, ?_⟩
      rw [hostTurn_of_nextOp hop]
      exact hostOp_rstN level s
    | true =>
      refine ⟨_, step_hostTurn hrst (hnext.resolve_left (by simp [hrst])), ?_⟩
      rw [hostTurn_of_nextOp ((nextOp_countTurn s).trans hop), ← countTurn_hostPos s]
      exact hostOp_rstN level (countTurn s)

end Sys2Proof.Machine
end

section
/-!
PROOFS, the command's lifecycle (spec/60_exceptions.md R232 to R241): acceptance, completion with and without an error,
the steps from the one to the other, and `irq` along the way.
-/

namespace Sys2Proof.Machine

/-! ### Acceptance -/

@[simp] theorem regAt_cmdIdx : regAt cmdIdx = .cmd := regAt_regOffset .cmd 0x014 rfl

/-- A word written to `CMD` while idle is accepted (R65, R232). -/
theorem hostWrite_cmd (v : Word) {s : State} (hrst : s.rstN = true) (hidle : s.busy = false) :
    hostWrite cmdIdx v s = accept v s := by
  rw [hostWrite_idle cmdIdx v hrst hidle, regAt_cmdIdx]
  rfl

/-- Settles O6: the write is the acceptance. -/
theorem acceptanceOfACommand : Obligations.AcceptanceOfACommand := by
  unfold Obligations.AcceptanceOfACommand
  intro s v hrst hidle
  rw [hostWrite_cmd v hrst hidle]
  rfl

/-! ### Completion -/

/-- Settles O11: every command is one completion, and a failing check decides its code and what precedes it. -/
theorem errorCompletionIsPrecise : Obligations.ErrorCompletionIsPrecise := by
  unfold Obligations.ErrorCompletionIsPrecise
  exact fun i s failed => exec_of_failed failed

/-- Settles O12: neither a rule's effect nor a completion without error writes `ERR` or `ERRCODE`. -/
theorem successfulCompletionReportsNoError : Obligations.SuccessfulCompletionReportsNoError := by
  unfold Obligations.SuccessfulCompletionReportsNoError
  intro i s passed noErr noCode
  obtain ⟨err, errcode⟩ := effect_errorReport i s
  exact ⟨_, exec_of_checks passed, rfl, rfl, err.trans noErr, errcode.trans noCode⟩

/-- The engine's step completes what is in `PENDING`, a command or an illegal word (R233, R234). -/
theorem engineStep_completes (s : State) : ∃ t, engineStep s = .next t ∧ Completes s t := by
  unfold engineStep
  cases decode s.pending with
  | ok i =>
    obtain ⟨code, t, hrun, completes⟩ := exec_completes i s
    exact ⟨complete code t, hrun, completes⟩
  | error _ => exact ⟨complete .opc s, rfl, completes_complete .opc rfl⟩

/-! ### From acceptance to completion -/

/-- While a command is in flight every step ends it or uses up one of the host turns before the engine's (R233, R239;
log 4). -/
theorem step_busy_ends_or_counts {s : State} (hbusy : s.busy = true) :
    ∃ t, step s = .next t ∧ (t.busy = false ∨ (t.busy = true ∧ s.delay = t.delay + 1)) := by
  cases hrst : s.rstN with
  | false => exact ⟨_, step_held hrst, .inl rfl⟩
  | true =>
    cases hturn : engineTurn s with
    | true =>
      obtain ⟨t, hrun, completes⟩ := engineStep_completes s
      exact ⟨t, (step_engineStep hrst hturn).trans hrun, .inl completes.busy⟩
    | false =>
      obtain ⟨hdelay, op, hop⟩ := hostTurns_left_of_busy hbusy hturn
      refine ⟨_, step_host_busy hbusy hdelay ⟨hrst, hop⟩, ?_⟩
      have leads := hostOp_leads op (s := { s with delay := s.delay - 1 }) hrst
      generalize hostOp op { s with delay := s.delay - 1 } = t at leads ⊢
      cases leads with
      | reset => exact .inl rfl
      | quiet => exact .inr ⟨hbusy, (Nat.succ_pred hdelay).symm⟩
      | write reg v hidle => simp [hbusy] at hidle

/-- Settles O9, by induction on the host turns left before the engine's. -/
theorem acceptedCommandCompletes : Obligations.AcceptedCommandCompletes := by
  unfold Obligations.AcceptedCommandCompletes
  intro s hbusy
  induction hn : s.delay generalizing s with
  | zero =>
    obtain ⟨t, hstep, ended | ⟨-, counted⟩⟩ := step_busy_ends_or_counts hbusy
    · exact ⟨1, t, by omega, core_run_succ 0 hstep, ended⟩
    · omega
  | succ n ih =>
    obtain ⟨t, hstep, ended | ⟨inFlight, counted⟩⟩ := step_busy_ends_or_counts hbusy
    · exact ⟨1, t, by omega, core_run_succ 0 hstep, ended⟩
    · obtain ⟨k, u, hk, hrun, ended⟩ := ih t inFlight (by omega)
      exact ⟨k + 1, u, by omega, (core_run_succ k hstep).trans hrun, ended⟩

/-- Settles O26: `DONE` is 0 while in flight, acceptance clears it, and completion sets it and keeps `IE`. -/
theorem interruptFollowsCompletion : Obligations.InterruptFollowsCompletion := by
  unfold Obligations.InterruptFollowsCompletion
  refine ⟨fun s hinv hbusy => ?inFlight, fun s v hrst hidle => ?accepted, fun s t hrun => ?completed⟩
  case inFlight =>
    obtain ⟨lifecycle, -⟩ := hinv
    simp [irq, lifecycle hbusy]
  case accepted => simp [irq, hostWrite_cmd v hrst hidle]
  case completed =>
    obtain ⟨u, hrun', completes⟩ := engineStep_completes s
    obtain rfl := Host.Outcome.next.inj (hrun'.symm.trans hrun)
    simp [irq, completes.done, completes.ie]

end Sys2Proof.Machine
end

section
/-!
PROOFS, soft reset, the state after reset and writes while busy (spec/70_reset_and_hazards.md R261 to R263, R271).
-/

namespace Sys2Proof.Machine

/-! ### Soft reset and writes while busy -/

/-- Settles O22: the two cases of a write while busy; the soft reset leaves the block at its reset values. -/
theorem busyWritesAreDropped : Obligations.BusyWritesAreDropped := by
  unfold Obligations.BusyWritesAreDropped
  refine fun s idx v hrst hbusy => ⟨hostWrite_dropped hrst hbusy, fun hsoft => ?_⟩
  rw [hostWrite_softReset hrst hsoft]
  obtain ⟨idle, -, window⟩ := atReset_blockReset s
  exact ⟨idle, window⟩

/-- Settles O23: the write is the block's reset, which keeps the pin at 1. -/
theorem softResetAtAnyTime : Obligations.SoftResetAtAnyTime := by
  unfold Obligations.SoftResetAtAnyTime
  intro s v hrst hbit
  rw [hostWrite_softReset hrst ⟨rfl, hbit⟩]
  simp only [blockReset, hrst]
  rfl

/-! ### The state after reset -/

/-- No stream is started after reset (R261). -/
theorem streamInv_resetFor (v : PolyVariant) : StreamInv (State.resetFor v) := by
  intro started
  simp at started

/-- No tag is valid after reset, and the phase is `IDLE` (R261). -/
theorem tagInv_resetFor (v : PolyVariant) : TagInv (State.resetFor v) := by
  constructor <;> simp

/-- There is no authenticator object after reset (R261). -/
theorem clampInv_resetFor (v : PolyVariant) : ClampInv (State.resetFor v) := by
  intro object
  simp at object

/-- Settles O59, invariant by invariant (R261, R263). -/
theorem resetMeetsTheInvariants : Obligations.ResetMeetsTheInvariants := by
  unfold Obligations.ResetMeetsTheInvariants
  exact fun v => ⟨objectInv_resetFor v, lifecycleInv_resetFor v, reducedInv_resetFor v, streamInv_resetFor v,
    tagInv_resetFor v, clampInv_resetFor v⟩

end Sys2Proof.Machine
end
